-- ==== Sys2Proof/Word.lean ====
section
/-! DEFINITION. The widths the spec fixes (00_scope.md R10): nothing but names for bit vectors. -/

namespace Sys2Proof

/-- A byte: a register-image cell, a frame byte, a received byte (10_state.md R40, R43, R44). -/
abbrev Byte := BitVec 8

/-- An operation word, and the result of READ_STATUS: 16 bits (00_scope.md R10). -/
abbrev Word := BitVec 16

/-- A raw sample: an unsigned 16-bit integer (00_scope.md R10). -/
abbrev RawSample := BitVec 16

/-- The bit pattern of an IEEE 754 binary32 number: a published value (00_scope.md R10, log 9). -/
abbrev Binary32 := BitVec 32

end Sys2Proof
end

