-- ==== Sys2Proof/Config.lean ====
section
/-! DEFINITION. What an implementation fixes (00_scope.md R9), the quantities, and the free values. -/

namespace Sys2Proof

/-- The three quantities: q = 0 temperature, 1 humidity, 2 gas concentration (00_scope.md R17,
43_aggregator.md R200). -/
inductive Quantity where
  | temperature
  | humidity
  | gas
  deriving DecidableEq, Repr

/-- The number `q` of a quantity (00_scope.md R17). -/
def Quantity.index : Quantity → Nat
  | .temperature => 0
  | .humidity => 1
  | .gas => 2

/-- Quantities 0, 1, 2, in the order every rule visits them (60_exceptions.md R260). -/
def Quantity.all : List Quantity := [.temperature, .humidity, .gas]

/-- One value for each of the `NQ = 3` quantities (00_scope.md R9). -/
structure PerQuantity (α : Type) where
  temperature : α
  humidity : α
  gas : α
  deriving DecidableEq, Repr

/-- The value of quantity `q`. -/
def PerQuantity.get {α : Type} (p : PerQuantity α) : Quantity → α
  | .temperature => p.temperature
  | .humidity => p.humidity
  | .gas => p.gas

/-- `p` with the value of quantity `q` replaced. -/
def PerQuantity.set {α : Type} (p : PerQuantity α) (q : Quantity) (v : α) : PerQuantity α :=
  match q with
  | .temperature => { p with temperature := v }
  | .humidity => { p with humidity := v }
  | .gas => { p with gas := v }

/-- The sample source of a quantity: `TWI(i)`, `SER(o)` or `NONE` (00_scope.md R9). -/
inductive Source where
  | twi (i : Nat)
  | ser (o : Nat)
  | none
  deriving DecidableEq, Repr

/-- The implementation parameters of 00_scope.md R9, constant for a run. `NQ` is the number of fields
of `PerQuantity`, `HDR_LEN` the length of `hdr`; `TEMP_IDX` and `HUM_IDX` enter through `src`
(`Config.defaults`). `Config.wf` (WellFormed.lean) says the ranges. -/
structure Config where
  /-- `REG_N`, the number of bytes in the register image. -/
  regN : Nat
  /-- `HDR`, the header signature. -/
  hdr : List Byte
  /-- `FRAME_LEN`, bytes per frame including the checksum. -/
  frameLen : Nat
  /-- `HDR_RESCAN`: re-test a mismatching byte against `HDR[0]`. -/
  hdrRescan : Bool
  /-- `BACKLOG_KEEP`, bytes kept by one SER_POLL when more are waiting. -/
  backlogKeep : Nat
  /-- `RX_CAP`, the capacity of the serial receive FIFO. -/
  rxCap : Nat
  /-- `W_CAP`, the sample window capacity per quantity. -/
  wCap : Nat
  /-- `SER_ATTACHED`: a byte source is attached to the serial path. -/
  serAttached : Bool
  /-- `SRC[q]`, the sample source of quantity q. -/
  src : PerQuantity Source
  /-- `SLOPE[q]`. -/
  slope : PerQuantity Rat
  /-- `INTERCEPT[q]`. -/
  intercept : PerQuantity Rat
  /-- `CAL[q]`, the per-quantity calibration offset. -/
  cal : PerQuantity Rat
  /-- `MIN[q]`, the inclusive lower end of the plausible range. -/
  min : PerQuantity Rat
  /-- `MAX[q]`, the inclusive upper end of the plausible range. -/
  max : PerQuantity Rat
  deriving DecidableEq, Repr

/-- `HDR_LEN`, the length of `HDR` (00_scope.md R9). -/
def Config.hdrLen (c : Config) : Nat := c.hdr.length

/-- The parameters 00_scope.md R9 marks OPEN: they have no default and must be supplied. -/
structure OpenParams where
  /-- `TEMP_IDX`, the image index of the high byte of the temperature pair. -/
  tempIdx : Nat
  /-- `HUM_IDX`, the image index of the high byte of the humidity pair. -/
  humIdx : Nat
  /-- `SLOPE[q]`. -/
  slope : PerQuantity Rat
  /-- `INTERCEPT[q]`. -/
  intercept : PerQuantity Rat
  /-- `MIN[q]`. -/
  min : PerQuantity Rat
  /-- `MAX[q]`. -/
  max : PerQuantity Rat
  deriving DecidableEq, Repr

/-- The configuration with every default of 00_scope.md R9 and the OPEN parameters supplied. -/
def Config.defaults (o : OpenParams) : Config :=
  { regN := 256
    hdr := [0x16#8, 0x05#8, 0x01#8]
    frameLen := 8
    hdrRescan := false
    backlogKeep := 8
    rxCap := 256
    wCap := 64
    serAttached := true
    src := ⟨.twi o.tempIdx, .twi o.humIdx, .ser 3⟩
    slope := o.slope
    intercept := o.intercept
    cal := ⟨0, 0, 0⟩
    min := o.min
    max := o.max }

/-- `TEMP_IDX`, OPEN: a free value in its range 0..255 (00_scope.md R9, log 2). -/
opaque Config.openTempIdx : Fin 256

/-- `HUM_IDX`, OPEN: a free value in its range 0..255 (00_scope.md R9, log 2). -/
opaque Config.openHumIdx : Fin 256

/-- `SLOPE[q]`, OPEN: a free value (00_scope.md R9, log 2). -/
opaque Config.openSlope : Quantity → Rat

/-- `INTERCEPT[q]`, OPEN: a free value (00_scope.md R9, log 2). -/
opaque Config.openIntercept : Quantity → Rat

/-- `MIN[q]`, OPEN: a free value (00_scope.md R9, log 2). -/
opaque Config.openMin : Quantity → Rat

/-- `MAX[q] - MIN[q]`: a free value that is not negative, so that `MIN[q] <= MAX[q]`
(00_scope.md R9, log 2). -/
opaque Config.openSpan : Quantity → NNRat

/-- The OPEN parameters of the machine after reset: every one a free value (log 2). -/
def OpenParams.free : OpenParams :=
  { tempIdx := Config.openTempIdx.val
    humIdx := Config.openHumIdx.val
    slope := ⟨Config.openSlope .temperature, Config.openSlope .humidity, Config.openSlope .gas⟩
    intercept :=
      ⟨Config.openIntercept .temperature, Config.openIntercept .humidity, Config.openIntercept .gas⟩
    min := ⟨Config.openMin .temperature, Config.openMin .humidity, Config.openMin .gas⟩
    max :=
      ⟨Config.openMin .temperature + (Config.openSpan .temperature : Rat),
        Config.openMin .humidity + (Config.openSpan .humidity : Rat),
        Config.openMin .gas + (Config.openSpan .gas : Rat)⟩ }

/-- The configuration of the machine after reset: the defaults of 00_scope.md R9 and free values for
the OPEN parameters (log 1, log 2). -/
def Config.atReset : Config := Config.defaults OpenParams.free

/-- The sign of the zero that a negative `x` too small for binary32 rounds to: a free value.
43_aggregator.md R209 states the sign of a zero result for x = 0 only (log 8). -/
opaque Config.underflowSign : Rat → Bool

end Sys2Proof
end

