-- ==== Sys2Proof/Machine/Binary32.lean ====
section
/-! DEFINITION. Rounding an exact rational to IEEE 754 binary32, once, ties to even (43_aggregator.md
R209), and the value of a binary32 bit pattern (log 9). -/

namespace Sys2Proof.Machine

open Sys2Proof

/-- The integer nearest to `a / b`, a tie going to the even one; `b` is not 0. -/
def divTiesToEven (a b : Nat) : Nat :=
  if 2 * (a % b) < b then a / b
  else if b < 2 * (a % b) then a / b + 1
  else if a / b % 2 = 0 then a / b else a / b + 1

/-- The number of bits of `t`: the least k with `t < 2^k`. -/
def bitLength (t : Nat) : Nat := if t = 0 then 0 else Nat.log2 t + 1

/-- The exponent of the binade of the magnitude `n / d` above the subnormal one: the least k with
`n / d < 2^(k - 125)`. In that binade binary32 numbers are the multiples of `2^(k - 149)`. -/
def binadeOf (n d : Nat) : Nat := bitLength (n * 2 ^ 125 / d)

/-- Bits 30:0 of the binary32 value nearest to the magnitude `n / d`: infinity from 2^128 - 2^103 on
(43_aggregator.md R209); below it, with k the binade and m the multiple of `2^(k - 149)` nearest to
`n / d`, the pattern `k * 2^23 + m`, in which the leading bit of a normal m, and a carry out of m,
count into the exponent field. -/
def magnitudeBits (n d : Nat) : Nat :=
  if (2 ^ 128 - 2 ^ 103) * d ≤ n then 0x7F800000
  else binadeOf n d * 2 ^ 23 + divTiesToEven (n * 2 ^ 149) (d * 2 ^ binadeOf n d)

/-- `RoundBinary32(x)` (43_aggregator.md R209). The sign bit of a result that is not zero is the sign of
x; zero is +0 for x = 0. Where a negative x rounds to zero the spec states no sign and it is a free
value (log 8). -/
def roundBinary32 (x : Rat) : Binary32 :=
  let mag := magnitudeBits x.num.natAbs x.den
  let sign := decide (x < 0) && (decide (mag ≠ 0) || Config.underflowSign x)
  BitVec.ofBool sign ++ BitVec.ofNat 31 mag

/-- The exponent field of a binary32 pattern, bits 30:23. -/
def binary32Exponent (f : Binary32) : Nat := (f.extractLsb' 23 8).toNat

/-- The fraction field of a binary32 pattern, bits 22:0. -/
def binary32Fraction (f : Binary32) : Nat := (f.extractLsb' 0 23).toNat

/-- The pattern stands for a number: its exponent field is not all ones. -/
def binary32Finite (f : Binary32) : Bool := decide (binary32Exponent f < 255)

/-- The magnitude of a finite binary32 pattern: `fraction * 2^-149` for a subnormal one,
`(2^23 + fraction) * 2^(exponent - 150)` for a normal one. -/
def binary32Magnitude (f : Binary32) : Rat :=
  if binary32Exponent f = 0 then (binary32Fraction f : Rat) / 2 ^ 149
  else ((2 ^ 23 + binary32Fraction f) * 2 ^ binary32Exponent f : Nat) / 2 ^ 150

/-- The number a finite binary32 pattern stands for. -/
def binary32Value (f : Binary32) : Rat :=
  if f.getLsbD 31 then -binary32Magnitude f else binary32Magnitude f

end Sys2Proof.Machine
end

