-- ==== Sys2Proof/Syntax.lean ====
section
/-! DEFINITION. The operations of TWBD, one constructor per row of spec/opcode_table.json. -/

namespace Sys2Proof

/-- The operations (30_encoding.md R103). Line levels `c` (SCL) and `d` (SDA) are Booleans, `true`
for high (R102, log 10). ILLEGAL(w) has no row in the opcode table and is no operation: what it does
is `Sys2Proof.Machine.illegalOp`. -/
inductive Instr where
  /-- NOP (44_control.md R230). -/
  | nop
  /-- EV_CLK_RISE c, d (41_twi_decoder.md R134). -/
  | evClkRise (c d : Bool)
  /-- EV_DATA_CHG c, d (41_twi_decoder.md R140). -/
  | evDataChg (c d : Bool)
  /-- LINE_SAMPLE c, d (41_twi_decoder.md R147). -/
  | lineSample (c d : Bool)
  /-- RX_PUSH b (42_frame_sync.md R178). -/
  | rxPush (b : Byte)
  /-- SER_POLL (42_frame_sync.md R179). -/
  | serPoll
  /-- SAMPLE_TICK (43_aggregator.md R202). -/
  | sampleTick
  /-- DRAIN q (43_aggregator.md R205); q = 3 is all quantities. -/
  | drain (q : BitVec 2)
  /-- READ_STATUS sel (44_control.md R231). -/
  | readStatus (sel : BitVec 4)
  /-- INIT (44_control.md R232). -/
  | init
  deriving DecidableEq, Repr

end Sys2Proof
end

