-- ==== Sys2Proof/WellFormed.lean ====
section
/-! DEFINITION. Which operations have an encoding, and which configurations are TWBD's. -/

namespace Sys2Proof

/-- The READ_STATUS selectors that name a status register: 0..6 and 8..10 (10_state.md R49, R58). -/
def selectorAssigned (sel : BitVec 4) : Bool :=
  decide (sel.toNat ≤ 6) || (decide (8 ≤ sel.toNat) && decide (sel.toNat ≤ 10))

/-- An operation is well formed when its word is legal (30_encoding.md R105, R106): every operand value
of every format is, but for the reserved selectors of READ_STATUS. -/
def Instr.wf : Instr → Bool
  | .nop => true
  | .evClkRise _ _ => true
  | .evDataChg _ _ => true
  | .lineSample _ _ => true
  | .rxPush _ => true
  | .serPoll => true
  | .sampleTick => true
  | .drain _ => true
  | .readStatus sel => selectorAssigned sel
  | .init => true

/-- A sample source in the range 00_scope.md R9 gives it: `TWI(i)` with i < `REG_N`, `SER(o)` with
o <= `FRAME_LEN` - 3, or `NONE`. -/
def Source.wf (c : Config) : Source → Bool
  | .twi i => decide (i < c.regN)
  | .ser o => decide (o + 3 ≤ c.frameLen)
  | .none => true

/-- Every parameter in the range 00_scope.md R9 gives it. -/
def Config.wf (c : Config) : Bool :=
  decide (1 ≤ c.regN) && decide (c.regN ≤ 256) &&
  decide (1 ≤ c.hdrLen) && decide (c.hdrLen + 1 ≤ c.frameLen) && decide (c.frameLen ≤ 16) &&
  decide (1 ≤ c.rxCap) && decide (c.rxCap ≤ 65535) &&
  decide (1 ≤ c.backlogKeep) && decide (c.backlogKeep ≤ c.rxCap) &&
  decide (1 ≤ c.wCap) && decide (c.wCap ≤ 65535) &&
  Quantity.all.all (fun q => (c.src.get q).wf c) &&
  Quantity.all.all (fun q => decide (c.min.get q ≤ c.max.get q))

end Sys2Proof
end

