-- ==== Sys2Proof/Decode.lean ====
section
/-! DEFINITION. The decoder of operation words, total on all 65536 of them, and the encoder
(30_encoding.md). -/

namespace Sys2Proof

/-- Why a word is illegal (30_encoding.md R104, R105). The effect of the word is the same for each
(44_control.md R233). -/
inductive IllegalReason where
  /-- Opcode 0xA to 0xF (R104). -/
  | reservedOpcode
  /-- A bit the word's format requires to be 0 is 1 (R105). -/
  | mustBeZeroBit
  /-- READ_STATUS with selector 7 or 11 to 15 (R105). -/
  | reservedSelector
  deriving DecidableEq, Repr

/-- What a word decodes to: exactly one operation, or ILLEGAL(w) (30_encoding.md R106). -/
inductive Decoded where
  | legal (i : Instr)
  | illegal (reason : IllegalReason) (w : Word)
  deriving DecidableEq, Repr

/-- The opcode, bits 15:12 (30_encoding.md R100). -/
def opcodeOf (w : Word) : BitVec 4 := w.extractLsb' 12 4

/-- The operand `c`, bit 1 (30_encoding.md R102). -/
def operandC (w : Word) : Bool := w.getLsbD 1

/-- The operand `d`, bit 0 (30_encoding.md R102). -/
def operandD (w : Word) : Bool := w.getLsbD 0

/-- The operand `b`, bits 7:0 (30_encoding.md R102). -/
def operandB (w : Word) : Byte := w.extractLsb' 0 8

/-- The operand `q`, bits 1:0 (30_encoding.md R102). -/
def operandQ (w : Word) : BitVec 2 := w.extractLsb' 0 2

/-- The operand `sel`, bits 3:0 (30_encoding.md R102). -/
def operandSel (w : Word) : BitVec 4 := w.extractLsb' 0 4

/-- `i`, where the bits the format requires to be 0 are 0; ILLEGAL(w) otherwise (30_encoding.md
R101, R105). -/
def ifZero (mustBeZero : Bool) (w : Word) (i : Instr) : Decoded :=
  if mustBeZero then .legal i else .illegal .mustBeZeroBit w

/-- Bits 11:0 are 0: format F-NONE (30_encoding.md R101). -/
def noneBitsZero (w : Word) : Bool := w.extractLsb' 0 12 == 0#12

/-- Bits 11:2 are 0: formats F-LINE and F-Q (30_encoding.md R101). -/
def lineBitsZero (w : Word) : Bool := w.extractLsb' 2 10 == 0#10

/-- Bits 11:8 are 0: format F-BYTE (30_encoding.md R101). -/
def byteBitsZero (w : Word) : Bool := w.extractLsb' 8 4 == 0#4

/-- Bits 11:4 are 0: format F-SEL (30_encoding.md R101). -/
def selBitsZero (w : Word) : Bool := w.extractLsb' 4 8 == 0#8

/-- READ_STATUS, or ILLEGAL(w) for a reserved selector (30_encoding.md R105, R106). -/
def decodeSelector (w : Word) : Decoded :=
  if selBitsZero w then
    if selectorAssigned (operandSel w) then .legal (.readStatus (operandSel w))
    else .illegal .reservedSelector w
  else .illegal .mustBeZeroBit w

/-- `Decode(w)` (30_encoding.md R106). -/
def decode (w : Word) : Decoded :=
  match (opcodeOf w).toNat with
  | 0x0 => ifZero (noneBitsZero w) w .nop
  | 0x1 => ifZero (lineBitsZero w) w (.evClkRise (operandC w) (operandD w))
  | 0x2 => ifZero (lineBitsZero w) w (.evDataChg (operandC w) (operandD w))
  | 0x3 => ifZero (lineBitsZero w) w (.lineSample (operandC w) (operandD w))
  | 0x4 => ifZero (byteBitsZero w) w (.rxPush (operandB w))
  | 0x5 => ifZero (noneBitsZero w) w .serPoll
  | 0x6 => ifZero (noneBitsZero w) w .sampleTick
  | 0x7 => ifZero (lineBitsZero w) w (.drain (operandQ w))
  | 0x8 => decodeSelector w
  | 0x9 => ifZero (noneBitsZero w) w .init
  | _ => .illegal .reservedOpcode w

/-- The word decodes to an operation. -/
def Decoded.isLegal : Decoded → Bool
  | .legal _ => true
  | .illegal _ _ => false

/-- A row of the opcode map: the bits a word of the operation has wherever the mask is 1. -/
structure OpcodeRow where
  mnemonic : String
  bits : Word
  mask : Word
  deriving DecidableEq, Repr

/-- The opcode map (30_encoding.md R103, opcode_table.json), beside the decoder and not used by it. -/
def opcodeRows : List OpcodeRow :=
  [ ⟨"NOP", 0x0000#16, 0xFFFF#16⟩
  , ⟨"EV_CLK_RISE", 0x1000#16, 0xFFFC#16⟩
  , ⟨"EV_DATA_CHG", 0x2000#16, 0xFFFC#16⟩
  , ⟨"LINE_SAMPLE", 0x3000#16, 0xFFFC#16⟩
  , ⟨"RX_PUSH", 0x4000#16, 0xFF00#16⟩
  , ⟨"SER_POLL", 0x5000#16, 0xFFFF#16⟩
  , ⟨"SAMPLE_TICK", 0x6000#16, 0xFFFF#16⟩
  , ⟨"DRAIN", 0x7000#16, 0xFFFC#16⟩
  , ⟨"READ_STATUS", 0x8000#16, 0xFFF0#16⟩
  , ⟨"INIT", 0x9000#16, 0xFFFF#16⟩ ]

/-- The mnemonic of an operation (30_encoding.md R103). -/
def mnemonicOf : Instr → String
  | .nop => "NOP"
  | .evClkRise _ _ => "EV_CLK_RISE"
  | .evDataChg _ _ => "EV_DATA_CHG"
  | .lineSample _ _ => "LINE_SAMPLE"
  | .rxPush _ => "RX_PUSH"
  | .serPoll => "SER_POLL"
  | .sampleTick => "SAMPLE_TICK"
  | .drain _ => "DRAIN"
  | .readStatus _ => "READ_STATUS"
  | .init => "INIT"

/-- The operation the decoder reads from an instruction whose bits are `w` (bit 0 the least
significant), of which the table gives `nbits`; the bits above are 0. The port moves a whole 16-bit
word at once and has no byte order (20_memory.md R77). -/
def decodeTableWord (nbits w : Nat) : Option Instr :=
  match decode (BitVec.ofNat 16 (w % 2 ^ nbits)) with
  | .legal i => some i
  | .illegal _ _ => none

/-- Format F-LINE: `c` in bit 1, `d` in bit 0 (30_encoding.md R101). -/
def lineWord (op : BitVec 4) (c d : Bool) : Word :=
  op ++ 0#10 ++ BitVec.ofBool c ++ BitVec.ofBool d

/-- The word of an operation (30_encoding.md R101, R103). For a reserved selector it is the word of
opcode 0x8 that carries it, which is illegal. -/
def encode : Instr → Word
  | .nop => 0x0000#16
  | .evClkRise c d => lineWord 0x1#4 c d
  | .evDataChg c d => lineWord 0x2#4 c d
  | .lineSample c d => lineWord 0x3#4 c d
  | .rxPush b => 0x4#4 ++ 0#4 ++ b
  | .serPoll => 0x5000#16
  | .sampleTick => 0x6000#16
  | .drain q => 0x7#4 ++ 0#10 ++ q
  | .readStatus sel => 0x8#4 ++ 0#8 ++ sel
  | .init => 0x9000#16

end Sys2Proof
end

