-- ==== Sys2Proof/Machine/State.lean ====
section
/-! DEFINITION. The state of TWBD as plain data, the events of its output stream, the outcomes a step
may stop with, and the state after reset (10_state.md, 70_reset_and_hazards.md). -/

namespace Sys2Proof.Machine

open Sys2Proof

/-- The agents that present words at the port (20_memory.md R86, 60_exceptions.md R265). -/
inductive Agent where
  /-- EDGE, the edge-trigger context. -/
  | edge
  /-- SERIAL, the serial line. -/
  | serial
  /-- POLL, the polling context and host. -/
  | poll
  deriving DecidableEq, Repr

/-- An operation word at the port with the agent that presented it (log 4). No operation reads the
agent (60_exceptions.md R264). -/
structure PortWord where
  agent : Agent
  word : Word
  deriving DecidableEq, Repr

/-- A report's severity (60_exceptions.md R252). -/
inductive Severity where
  | diagnostic
  | warning
  deriving DecidableEq, Repr

/-- The reports (60_exceptions.md R251), in the order of their numeric codes 0x01 to 0x0A. -/
inductive ReportCode where
  | twiAddrNack
  | twiPtrNack
  | serHdrMismatch
  | serChecksumMismatch
  | aggNoData
  | aggOutOfRange
  | serMisconfig
  | rxOverflow
  | windowOverflow
  | illegalOp
  deriving DecidableEq, Repr

/-- An event of the output stream (10_state.md R60). -/
inductive Event where
  /-- `Publish(q, f)`. -/
  | publish (q : Quantity) (f : Binary32)
  /-- `Report(code, sev, info)`; `info` lists the values of R251's info column in its order (log 14). -/
  | report (code : ReportCode) (sev : Severity) (info : List Nat)
  /-- `Result(v)`. -/
  | result (v : Word)
  deriving DecidableEq, Repr

/-- The faults of a step. There are none: "TWBD has no trap, no exception entry and no fatal
condition" (60_exceptions.md R250), so nothing raises one, which is as safe as the spec (log 12). -/
inductive Fault where
  deriving DecidableEq, Repr

/-- The refusals of a step. -/
inductive Refusal where
  /-- Raised by an arm of `exec` for an operation that has no meaning yet; no arm is one. Safe: the
  machine stops where the hardware goes on. -/
  | notModelled (mnemonic : String)
  deriving DecidableEq, Repr

/-- Byte cells by address, in the canonical form `Memory.wf`: addresses strictly rising, no listed cell
equal to what an unlisted one reads as (log 6). -/
abbrev Memory := List Host.Cell

/-- What TWBD holds: the record of 10_state.md R32 (`idle` to `fMisconfig`), the output stream and the
position in the operation stream (R60, R31), and the model's own `port` and `cfg` (log 3, log 1). A
one-bit field is a Boolean, `true` for 1 (log 10). -/
structure State where
  /-- The configuration (00_scope.md R9), an argument of every step; no operation writes it. -/
  cfg : Config
  /-- 1 = no transaction in progress (10_state.md R33). -/
  idle : Bool
  /-- Bit index 0..8 within the byte under construction (R34). -/
  bitcnt : BitVec 4
  /-- Byte index within the transaction, saturating at 255 (R35). -/
  bytecnt : BitVec 8
  /-- 0 = write, 1 = read (R36). -/
  dir : Bool
  /-- The byte under construction (R37). -/
  shreg : Byte
  /-- The register pointer (R38). -/
  ptr : BitVec 8
  /-- The last ACKed address byte (R39). -/
  devaddr : Byte
  /-- The register image (R40). -/
  img : Memory
  /-- `fe_scl`, the SCL level of the previous LINE_SAMPLE (R41). -/
  feScl : Bool
  /-- `fe_sda`, the SDA level of the previous LINE_SAMPLE (R41). -/
  feSda : Bool
  /-- Bytes of the candidate frame accepted so far (R42). -/
  fpos : BitVec 4
  /-- The candidate frame, `FRAME_LEN` bytes (R43). -/
  fbuf : List Byte
  /-- The serial receive FIFO, oldest first (R44). -/
  rxq : List Byte
  /-- The sample windows, oldest sample first (R45). -/
  win : PerQuantity (List RawSample)
  /-- `f_rxovf` (R46). -/
  fRxovf : Bool
  /-- `f_winovf` (R46). -/
  fWinovf : Bool
  /-- `f_illegal` (R46). -/
  fIllegal : Bool
  /-- `f_misconfig` (R46). -/
  fMisconfig : Bool
  /-- The words presented and not yet consumed, in arrival order (R31). -/
  port : List PortWord
  /-- The position in the operation stream: the number of words consumed (R31). -/
  stepIndex : Nat
  /-- The output stream, oldest event first (R60). -/
  out : List Event
  deriving DecidableEq, Repr

/-- The state ResetState() gives under configuration `c`, with an empty output stream and nothing
presented (70_reset_and_hazards.md R280, R281). -/
def State.powerOn (c : Config) : State :=
  { cfg := c
    idle := true
    bitcnt := 0#4
    bytecnt := 0#8
    dir := false
    shreg := 0x00#8
    ptr := 0#8
    devaddr := 0x00#8
    img := []
    feScl := true
    feSda := true
    fpos := 0#4
    fbuf := List.replicate c.frameLen 0x00#8
    rxq := []
    win := ⟨[], [], []⟩
    fRxovf := false
    fWinovf := false
    fIllegal := false
    fMisconfig := false
    port := []
    stepIndex := 0
    out := [] }

/-- The machine right after reset (70_reset_and_hazards.md R281), under the default configuration with
the OPEN parameters free (log 2). -/
def State.reset : State := State.powerOn Config.atReset

end Sys2Proof.Machine
end

