-- ==== Sys2Proof/Machine/Flags.lean ====
section
/-! DEFINITION. The sticky flags (10_state.md R46) and the FLAGS register that shows them (R55). Only
INIT or reset clears a flag; TWBD has no condition codes (R47). -/

namespace Sys2Proof.Machine

open Sys2Proof

/-- `f_rxovf <- 1` (10_state.md R46). -/
def setRxovf (s : State) : State := { s with fRxovf := true }

/-- `f_winovf <- 1` (10_state.md R46). -/
def setWinovf (s : State) : State := { s with fWinovf := true }

/-- `f_illegal <- 1` (10_state.md R46). -/
def setIllegal (s : State) : State := { s with fIllegal := true }

/-- `f_misconfig <- 1` (10_state.md R46). -/
def setMisconfig (s : State) : State := { s with fMisconfig := true }

/-- FLAGS: bit 0 `f_rxovf`, bit 1 `f_winovf`, bit 2 `f_illegal`, bit 3 `f_misconfig`, bits 15:4 zero
(10_state.md R55). -/
def flagsRegister (s : State) : Word :=
  0#12 ++ BitVec.ofBool s.fMisconfig ++ BitVec.ofBool s.fIllegal ++ BitVec.ofBool s.fWinovf ++
    BitVec.ofBool s.fRxovf

end Sys2Proof.Machine
end

