-- ==== Sys2Proof/Machine/Memory.lean ====
section
/-! DEFINITION. Byte cells in canonical form: reading, writing, and the form itself (20_memory.md R71,
10_state.md R40). -/

namespace Sys2Proof.Machine

open Sys2Proof

/-- What an unlisted cell reads as: every cell's reset value is 0x00 (10_state.md R40). -/
def unlistedByte : Byte := 0x00#8

/-- The address of every cell of `m` is above `a`. -/
def Memory.above (a : Nat) (m : Memory) : Bool := m.all (fun c => decide (a < c.1))

/-- The canonical form: addresses strictly rising, no listed cell equal to an unlisted one. -/
def Memory.wf : Memory → Bool
  | [] => true
  | c :: rest => decide (c.2 ≠ unlistedByte) && Memory.above c.1 rest && Memory.wf rest

/-- The byte at address `a`. -/
def Memory.read : Memory → Nat → Byte
  | [], _ => unlistedByte
  | c :: rest, a => if c.1 = a then c.2 else Memory.read rest a

/-- `rest` with the cell `(a, v)` put before it, unless an unlisted cell reads as `v`. -/
def Memory.put (a : Nat) (v : Byte) (rest : Memory) : Memory :=
  if v = unlistedByte then rest else (a, v) :: rest

/-- The cells after writing `v` at address `a`. -/
def Memory.write : Memory → Nat → Byte → Memory
  | [], a, v => Memory.put a v []
  | c :: rest, a, v =>
    if a < c.1 then Memory.put a v (c :: rest)
    else if a = c.1 then Memory.put a v rest
    else c :: Memory.write rest a v

end Sys2Proof.Machine
end

