-- ==== Sys2Proof/Machine/Ops.lean ====
section
/-! DEFINITION. The primitives every rule uses (00_scope.md R13, R14; 20_memory.md), the reports
(60_exceptions.md R251), ResetState (70_reset_and_hazards.md R280), ILLEGAL(w) (44_control.md R233) and
the port. TWBD takes no exception and returns from none (60_exceptions.md R250, R262, R263): an error
is a report, and `emitReport` is the one shared operation for it. -/

namespace Sys2Proof.Machine

open Sys2Proof

/-! ### The output stream -/

/-- Append an event to the output stream (10_state.md R60). -/
def emit (e : Event) (s : State) : State := { s with out := s.out ++ [e] }

/-- `emit Report(code, sev, info)` (00_scope.md R14): it never stops the operation. -/
def emitReport (code : ReportCode) (sev : Severity) (info : List Nat) (s : State) : State :=
  emit (.report code sev info) s

/-- `emit Publish(q, f)` (00_scope.md R14). -/
def emitPublish (q : Quantity) (f : Binary32) (s : State) : State := emit (.publish q f) s

/-- `emit Result(v)` (00_scope.md R14). -/
def emitResult (v : Word) (s : State) : State := emit (.result v) s

/-- The numeric code of a report (60_exceptions.md R251). -/
def ReportCode.number : ReportCode → Nat
  | .twiAddrNack => 0x01
  | .twiPtrNack => 0x02
  | .serHdrMismatch => 0x03
  | .serChecksumMismatch => 0x04
  | .aggNoData => 0x05
  | .aggOutOfRange => 0x06
  | .serMisconfig => 0x07
  | .rxOverflow => 0x08
  | .windowOverflow => 0x09
  | .illegalOp => 0x0A

/-- The severity the table of reports gives a report (60_exceptions.md R251). -/
def ReportCode.severity : ReportCode → Severity
  | .twiAddrNack => .diagnostic
  | .twiPtrNack => .diagnostic
  | .serHdrMismatch => .diagnostic
  | .serChecksumMismatch => .diagnostic
  | .aggNoData => .warning
  | .aggOutOfRange => .warning
  | .serMisconfig => .warning
  | .rxOverflow => .warning
  | .windowOverflow => .warning
  | .illegalOp => .warning

/-- The number of a severity: diagnostic 0, warning 1 (60_exceptions.md R252). -/
def Severity.number : Severity → Nat
  | .diagnostic => 0
  | .warning => 1

/-! ### Arithmetic -/

/-- `sat_inc_8(v)` (00_scope.md R13). -/
def satInc8 (v : BitVec 8) : BitVec 8 := if v.toNat < 255 then v + 1#8 else 255#8

/-- `wrapN(v)`, that is `v mod REG_N` (00_scope.md R13). -/
def wrapN (c : Config) (v : Nat) : Nat := v % c.regN

/-- `{hi, lo}`: two bytes as a 16-bit value, `hi` in the more significant bits (00_scope.md R11). -/
def pair (hi lo : Byte) : RawSample := hi ++ lo

/-! ### The register image -/

/-- `img[i]` (00_scope.md R14). -/
def imgRead (s : State) (i : Nat) : Byte := s.img.read i

/-- `ImgWrite(i, v)` (00_scope.md R14). -/
def imgWrite (i : Nat) (v : Byte) (s : State) : State := { s with img := s.img.write i v }

/-- `ImgRead16(i)`: the big-endian pair at i and wrapN(i + 1) (20_memory.md R75). -/
def imgRead16 (s : State) (i : Nat) : RawSample :=
  pair (imgRead s i) (imgRead s (wrapN s.cfg (i + 1)))

/-! ### The serial receive FIFO -/

/-- `FifoCount()` (20_memory.md R78). -/
def fifoCount (s : State) : Nat := s.rxq.length

/-- `FifoPush(b)` on a FIFO that is not full (20_memory.md R78). -/
def fifoPush (b : Byte) (s : State) : State := { s with rxq := s.rxq ++ [b] }

/-- `FifoPop()`: the head byte and the state without it (20_memory.md R78). `none` on an empty FIFO, on
which no rule calls it. -/
def fifoPop (s : State) : Option (Byte × State) :=
  match s.rxq with
  | [] => none
  | b :: rest => some (b, { s with rxq := rest })

/-! ### The sample windows -/

/-- `WinAppend(q, v)` (20_memory.md R80). -/
def winAppend (q : Quantity) (v : RawSample) (s : State) : State :=
  if (s.win.get q).length < s.cfg.wCap then { s with win := s.win.set q (s.win.get q ++ [v]) }
  else emitReport .windowOverflow .warning [q.index] (setWinovf s)

/-- `WinClear(q)` (20_memory.md R80). -/
def winClear (q : Quantity) (s : State) : State := { s with win := s.win.set q [] }

/-! ### Reset and illegal words -/

/-- `ResetState()`: every field of 10_state.md R32 at its reset value; it emits nothing
(70_reset_and_hazards.md R280). -/
def resetState (s : State) : State :=
  { s with
    idle := true
    bitcnt := 0#4
    bytecnt := 0#8
    dir := false
    shreg := 0x00#8
    ptr := 0#8
    devaddr := 0x00#8
    img := []
    feScl := true
    feSda := true
    fpos := 0#4
    fbuf := List.replicate s.cfg.frameLen 0x00#8
    rxq := []
    win := ⟨[], [], []⟩
    fRxovf := false
    fWinovf := false
    fIllegal := false
    fMisconfig := false }

/-- `ILLEGAL(w)` (44_control.md R233). -/
def illegalOp (w : Word) (s : State) : State :=
  emitReport .illegalOp .warning [w.toNat] (setIllegal s)

/-! ### The port -/

/-- An agent presents a word: it waits behind the words presented before it (10_state.md R31,
20_memory.md R86). -/
def present (a : Agent) (w : Word) (s : State) : State := { s with port := s.port ++ [⟨a, w⟩] }

/-- The next word of the port and the state that has consumed it: the word is gone and the position in
the stream has advanced by 1 (10_state.md R31). `none` when no word waits. -/
def fetch (s : State) : Option (Word × State) :=
  match s.port with
  | [] => none
  | p :: rest => some (p.word, { s with port := rest, stepIndex := s.stepIndex + 1 })

/-- The agent that presents an operation (60_exceptions.md R265). The spec names none for NOP; the
model takes POLL (log 17). -/
def presenter : Instr → Agent
  | .nop => .poll
  | .evClkRise _ _ => .edge
  | .evDataChg _ _ => .edge
  | .lineSample _ _ => .edge
  | .rxPush _ => .serial
  | .serPoll => .poll
  | .sampleTick => .poll
  | .drain _ => .poll
  | .readStatus _ => .poll
  | .init => .poll

/-- The agent tag the model gives a word placed at the port by the host's checks (log 17). -/
def presenterOfWord (w : Word) : Agent :=
  match decode w with
  | .legal i => presenter i
  | .illegal _ _ => .poll

end Sys2Proof.Machine
end

