-- ==== Sys2Proof/Machine/Operands.lean ====
section
/-! DEFINITION. What the operands name: the quantities of DRAIN q (43_aggregator.md R205) and the status
registers of READ_STATUS sel (10_state.md R49 to R57). Line levels, the byte of RX_PUSH and the fields of
a word are the decoder's (Decode.lean). -/

namespace Sys2Proof.Machine

open Sys2Proof

/-- The quantities `DRAIN q` drains, in order: all three for q = 3 (43_aggregator.md R205). -/
def drainTargets (q : BitVec 2) : List Quantity :=
  match q.toNat with
  | 0 => [.temperature]
  | 1 => [.humidity]
  | 2 => [.gas]
  | _ => Quantity.all

/-- DSTAT (10_state.md R50). -/
def dstat (s : State) : Word :=
  s.bytecnt ++ 0#2 ++ BitVec.ofBool s.dir ++ s.bitcnt ++ BitVec.ofBool s.idle

/-- DPTR (10_state.md R51). -/
def dptr (s : State) : Word := s.shreg ++ s.ptr

/-- DADDR (10_state.md R52). -/
def daddr (s : State) : Word := 0#8 ++ s.devaddr

/-- SSTAT (10_state.md R53). -/
def sstat (s : State) : Word := 0#12 ++ s.fpos

/-- RXCNT (10_state.md R54). -/
def rxcnt (s : State) : Word := BitVec.ofNat 16 (fifoCount s)

/-- FESTAT (10_state.md R56). -/
def festat (s : State) : Word := 0#14 ++ BitVec.ofBool s.feSda ++ BitVec.ofBool s.feScl

/-- WCNT0, WCNT1, WCNT2 (10_state.md R57). -/
def wcnt (q : Quantity) (s : State) : Word := BitVec.ofNat 16 (s.win.get q).length

/-- `StatusReg(sel)`; `none` for a reserved selector (10_state.md R49, R58). -/
def statusReg (sel : BitVec 4) (s : State) : Option Word :=
  match sel.toNat with
  | 0 => some (dstat s)
  | 1 => some (dptr s)
  | 2 => some (daddr s)
  | 3 => some (sstat s)
  | 4 => some (rxcnt s)
  | 5 => some (flagsRegister s)
  | 6 => some (festat s)
  | 8 => some (wcnt .temperature s)
  | 9 => some (wcnt .humidity s)
  | 10 => some (wcnt .gas s)
  | _ => none

end Sys2Proof.Machine
end

