-- ==== Sys2Proof/Machine/Aggregator.lean ====
section
/-! DEFINITION. The windowed sample aggregator: SAMPLE_TICK and DRAIN (43_aggregator.md). -/

namespace Sys2Proof.Machine

open Sys2Proof

/-- The sample of quantity q from the register image, where its source is there (43_aggregator.md
R202). -/
def appendImageSample (q : Quantity) (s : State) : State :=
  match s.cfg.src.get q with
  | .twi i => winAppend q (imgRead16 s i) s
  | .ser _ => s
  | .none => s

/-- `SAMPLE_TICK()` as a function of the state: skipped while the bus is busy (43_aggregator.md R202,
R203). -/
def sampleImage (s : State) : State :=
  if s.idle then Quantity.all.foldl (fun t q => appendImageSample q t) s else s

/-- `v` put into a list in ascending unsigned order, before the first element that is not smaller. -/
def insertAscending (v : RawSample) : List RawSample → List RawSample
  | [] => [v]
  | u :: rest => if v.toNat ≤ u.toNat then v :: u :: rest else u :: insertAscending v rest

/-- A list of samples sorted in ascending unsigned order (43_aggregator.md R204). -/
def sortAscending : List RawSample → List RawSample
  | [] => []
  | v :: rest => insertAscending v (sortAscending rest)

/-- `Median(L)`: the element at index (n - 1) div 2 of the sorted samples. The rule is for a non-empty
list, the only one DRAIN gives it (43_aggregator.md R204). -/
def median (samples : List RawSample) : RawSample :=
  (sortAscending samples).getD ((samples.length - 1) / 2) 0#16

/-- The physical value of the raw sample v: `SLOPE[q] * v + INTERCEPT[q] + CAL[q]`, exactly
(43_aggregator.md R207). -/
def physicalValue (c : Config) (q : Quantity) (v : RawSample) : Rat :=
  c.slope.get q * (v.toNat : Rat) + c.intercept.get q + c.cal.get q

/-- The range check on the exact value, both ends inclusive, and what it emits (43_aggregator.md
R208). -/
def publishChecked (q : Quantity) (v : RawSample) (s : State) : State :=
  let x := physicalValue s.cfg q v
  if s.cfg.min.get q ≤ x ∧ x ≤ s.cfg.max.get q then emitPublish q (roundBinary32 x) s
  else emitReport .aggOutOfRange .warning [q.index, v.toNat] s

/-- `DrainOne(q)` (43_aggregator.md R206 to R209). -/
def drainOne (q : Quantity) (s : State) : State :=
  if (s.win.get q).length = 0 then emitReport .aggNoData .warning [q.index] s
  else winClear q (publishChecked q (median (s.win.get q)) s)

/-- SAMPLE_TICK (43_aggregator.md R202). -/
def execSampleTick (s : State) : Host.Outcome State Fault Refusal :=
  .next (sampleImage s)

/-- DRAIN q (43_aggregator.md R205). -/
def execDrain (q : BitVec 2) (s : State) : Host.Outcome State Fault Refusal :=
  .next ((drainTargets q).foldl (fun t r => drainOne r t) s)

end Sys2Proof.Machine
end

