-- ==== Sys2Proof/Machine/Control.lean ====
section
/-! DEFINITION. The control operations: NOP, READ_STATUS and INIT (44_control.md). -/

namespace Sys2Proof.Machine

open Sys2Proof

/-- NOP (44_control.md R230). -/
def execNop (s : State) : Host.Outcome State Fault Refusal := .next s

/-- READ_STATUS sel: it emits the register and changes nothing else. With a reserved selector the word
is illegal, and acts as ILLEGAL of that word (44_control.md R231, 10_state.md R58, log 11). -/
def execReadStatus (sel : BitVec 4) (s : State) : Host.Outcome State Fault Refusal :=
  match statusReg sel s with
  | some v => .next (emitResult v s)
  | none => .next (illegalOp (encode (.readStatus sel)) s)

/-- INIT: ResetState, and the misconfiguration report where no byte source is attached (44_control.md
R232). -/
def execInit (s : State) : Host.Outcome State Fault Refusal :=
  .next
    (if s.cfg.serAttached then resetState s
      else emitReport .serMisconfig .warning [] (setMisconfig (resetState s)))

end Sys2Proof.Machine
end

