-- ==== Sys2Proof/Machine/FrameSync.lean ====
section
/-! DEFINITION. The asynchronous frame synchronizer: RX_PUSH and SER_POLL (42_frame_sync.md). -/

namespace Sys2Proof.Machine

open Sys2Proof

/-- The sum of a list of bytes, as a number. -/
def byteSum (bytes : List Byte) : Nat := (bytes.map BitVec.toNat).sum

/-- `Checksum(fbuf)`: the two's complement of the sum of the first `FRAME_LEN - 1` bytes
(42_frame_sync.md R172). -/
def checksum (c : Config) (fbuf : List Byte) : Byte :=
  BitVec.ofNat 8 ((0x100 - byteSum (fbuf.take (c.frameLen - 1)) % 0x100) % 0x100)

/-- `fbuf[i]` (10_state.md R43). -/
def fbufRead (s : State) (i : Nat) : Byte := s.fbuf.getD i 0x00#8

/-- `fbuf[i] <- b` (10_state.md R43). -/
def fbufWrite (i : Nat) (b : Byte) (s : State) : State := { s with fbuf := s.fbuf.set i b }

/-- The sample of source `SER(o)`: `{fbuf[o], fbuf[o + 1]}` (20_memory.md R76). -/
def frameField (s : State) (o : Nat) : RawSample := pair (fbufRead s o) (fbufRead s (o + 1))

/-- The sample of quantity q from a valid frame, where its source is serial (42_frame_sync.md R177). -/
def appendFrameSample (q : Quantity) (s : State) : State :=
  match s.cfg.src.get q with
  | .ser o => winAppend q (frameField s o) s
  | .twi _ => s
  | .none => s

/-- `FrameDone()`: a valid frame gives its samples in the order 0, 1, 2; any other is discarded; the
search starts again (42_frame_sync.md R176). -/
def frameDone (s : State) : State :=
  let received := fbufRead s (s.cfg.frameLen - 1)
  let expected := checksum s.cfg s.fbuf
  let checked :=
    if received = expected then Quantity.all.foldl (fun t q => appendFrameSample q t) s
    else emitReport .serChecksumMismatch .diagnostic [received.toNat, expected.toNat] s
  { checked with fpos := 0#4 }

/-- A byte that does not match the header at `fpos`: reported when it breaks a partial header, and, with
`HDR_RESCAN`, tested again against `HDR[0]` (42_frame_sync.md R173, R174). -/
def headerMismatch (b : Byte) (s : State) : State :=
  let reported :=
    if 0 < s.fpos.toNat then emitReport .serHdrMismatch .diagnostic [s.fpos.toNat, b.toNat] s else s
  if s.cfg.hdrRescan = true ∧ s.cfg.hdr[0]? = some b then
    { fbufWrite 0 b reported with fpos := 1#4 }
  else { reported with fpos := 0#4 }

/-- `SyncByte(b)` (42_frame_sync.md R173). -/
def syncByte (b : Byte) (s : State) : State :=
  if s.fpos.toNat < s.cfg.hdrLen then
    if s.cfg.hdr[s.fpos.toNat]? = some b then
      { fbufWrite s.fpos.toNat b s with fpos := s.fpos + 1#4 }
    else headerMismatch b s
  else
    let stored := fbufWrite s.fpos.toNat b s
    if s.fpos.toNat + 1 < s.cfg.frameLen then { stored with fpos := s.fpos + 1#4 }
    else frameDone stored

/-- `repeat n times: FifoPop()`, the bytes not examined (42_frame_sync.md R179). -/
def discardBytes : Nat → State → State
  | 0, s => s
  | n + 1, s =>
    match fifoPop s with
    | none => s
    | some (_, popped) => discardBytes n popped

/-- `repeat n times: SyncByte(FifoPop())`, oldest first (42_frame_sync.md R179). -/
def syncBytes : Nat → State → State
  | 0, s => s
  | n + 1, s =>
    match fifoPop s with
    | none => s
    | some (b, popped) => syncBytes n (syncByte b popped)

/-- The backlog skip: the oldest bytes over `BACKLOG_KEEP` are discarded and `fpos` is reset
(42_frame_sync.md R179, R180). -/
def skipBacklog (s : State) : State :=
  if s.cfg.backlogKeep < fifoCount s then
    { discardBytes (fifoCount s - s.cfg.backlogKeep) s with fpos := 0#4 }
  else s

/-- One polling pass over the serial path; nothing where no byte source is attached (42_frame_sync.md
R179, R181). -/
def serialPass (s : State) : State :=
  if s.cfg.serAttached then
    let kept := skipBacklog s
    syncBytes (fifoCount kept) kept
  else s

/-- One received byte; lost where no byte source is attached or the FIFO is full (42_frame_sync.md R178,
R181). -/
def receiveByte (b : Byte) (s : State) : State :=
  if s.cfg.serAttached then
    if fifoCount s < s.cfg.rxCap then fifoPush b s
    else emitReport .rxOverflow .warning [b.toNat] (setRxovf s)
  else s

/-- RX_PUSH b (42_frame_sync.md R178). -/
def execRxPush (b : Byte) (s : State) : Host.Outcome State Fault Refusal :=
  .next (receiveByte b s)

/-- SER_POLL (42_frame_sync.md R179). -/
def execSerPoll (s : State) : Host.Outcome State Fault Refusal :=
  .next (serialPass s)

end Sys2Proof.Machine
end

