-- ==== Sys2Proof/Machine/TwiDecoder.lean ====
section
/-! DEFINITION. The two-wire bus transaction decoder: EV_CLK_RISE, EV_DATA_CHG and the LINE_SAMPLE front
end (41_twi_decoder.md). -/

namespace Sys2Proof.Machine

open Sys2Proof

/-- `DataBit(d)`, the step of bit index 0 to 7: the direction is latched at bit index 7 of byte index 0,
and d is shifted in, most significant bit first (41_twi_decoder.md R135). -/
def dataBit (d : Bool) (s : State) : State :=
  { s with
    dir := if s.bytecnt = 0#8 ∧ s.bitcnt = 7#4 then d else s.dir
    shreg := s.shreg.extractLsb' 0 7 ++ BitVec.ofBool d
    bitcnt := s.bitcnt + 1#4 }

/-- The acknowledgment slot of the address byte: NACK abandons the transaction, ACK commits the device
address (41_twi_decoder.md R136). -/
def ackAddress (d : Bool) (s : State) : State :=
  if d then emitReport .twiAddrNack .diagnostic [s.shreg.toNat] { s with idle := true }
  else { s with devaddr := s.shreg }

/-- The acknowledgment slot of the register-pointer byte: NACK abandons the transaction, ACK commits the
pointer (41_twi_decoder.md R137). -/
def ackPointer (d : Bool) (s : State) : State :=
  if d then emitReport .twiPtrNack .diagnostic [s.shreg.toNat] { s with idle := true }
  else { s with ptr := BitVec.ofNat 8 (wrapN s.cfg s.shreg.toNat) }

/-- `ptr <- wrapN(ptr + 1)` (41_twi_decoder.md R138, R144). -/
def advancePointer (s : State) : State :=
  { s with ptr := BitVec.ofNat 8 (wrapN s.cfg (s.ptr.toNat + 1)) }

/-- The acknowledgment slot of a data byte: the byte is stored and the pointer advanced before the
ACK/NACK test; NACK then ends the transaction (41_twi_decoder.md R138). -/
def ackData (d : Bool) (s : State) : State :=
  let stored := advancePointer (imgWrite s.ptr.toNat s.shreg s)
  if d then { stored with idle := true } else stored

/-- The end of every acknowledgment slot: advance to the next byte, reset the bit counter
(41_twi_decoder.md R139). -/
def ackEnd (s : State) : State :=
  { s with bytecnt := satInc8 s.bytecnt, bitcnt := 0#4, shreg := 0x00#8 }

/-- `AckSlot(d)`, the step of bit index 8 (41_twi_decoder.md R136 to R139). -/
def ackSlot (d : Bool) (s : State) : State :=
  ackEnd
    (if s.bytecnt = 0#8 then ackAddress d s
      else if s.bytecnt = 1#8 ∧ s.dir = false then ackPointer d s
      else ackData d s)

/-- `ClkRise(c, d)`, the body of EV_CLK_RISE: the level c is not read (41_twi_decoder.md R131, R134). -/
def clkRise (_c d : Bool) (s : State) : State :=
  if s.idle then s
  else if s.bitcnt.toNat < 8 then dataBit d s
  else ackSlot d s

/-- START (41_twi_decoder.md R132, R140). -/
def startCondition (s : State) : State :=
  { s with idle := false, bitcnt := 0#4, bytecnt := 0#8, shreg := 0x00#8 }

/-- STOP (41_twi_decoder.md R133, R140, R142). -/
def stopCondition (s : State) : State := { s with idle := true }

/-- `DataChg(c, d)`, the body of EV_DATA_CHG (41_twi_decoder.md R140). -/
def dataChg (c d : Bool) (s : State) : State :=
  if c && !d then startCondition s
  else if c && d then stopCondition s
  else s

/-- `LINE_SAMPLE(c, d)` as a function of the state: the data change first, qualified by SCL high before
and after, then the clock rise, then the levels are kept (41_twi_decoder.md R147 to R149). -/
def lineSampled (c d : Bool) (s : State) : State :=
  let hi := s.feScl && c
  let rise := !s.feScl && c
  let changed := if d != s.feSda then dataChg hi d s else s
  let clocked := if rise then clkRise true d changed else changed
  { clocked with feScl := c, feSda := d }

/-- EV_CLK_RISE c, d (41_twi_decoder.md R134). -/
def execEvClkRise (c d : Bool) (s : State) : Host.Outcome State Fault Refusal :=
  .next (clkRise c d s)

/-- EV_DATA_CHG c, d (41_twi_decoder.md R140). -/
def execEvDataChg (c d : Bool) (s : State) : Host.Outcome State Fault Refusal :=
  .next (dataChg c d s)

/-- LINE_SAMPLE c, d (41_twi_decoder.md R147). -/
def execLineSample (c d : Bool) (s : State) : Host.Outcome State Fault Refusal :=
  .next (lineSampled c d s)

end Sys2Proof.Machine
end

