-- ==== Sys2Proof/Machine/Dispatch.lean ====
section
/-! DEFINITION. What each operation does: one arm per constructor of `Instr`, one meaning per arm. -/

namespace Sys2Proof.Machine

open Sys2Proof

/-- The effect of one operation (00_scope.md R15). -/
def exec (i : Instr) (s : State) : Host.Outcome State Fault Refusal :=
  match i with
  | .nop => Sys2Proof.Machine.execNop s
  | .evClkRise c d => Sys2Proof.Machine.execEvClkRise c d s
  | .evDataChg c d => Sys2Proof.Machine.execEvDataChg c d s
  | .lineSample c d => Sys2Proof.Machine.execLineSample c d s
  | .rxPush b => Sys2Proof.Machine.execRxPush b s
  | .serPoll => Sys2Proof.Machine.execSerPoll s
  | .sampleTick => Sys2Proof.Machine.execSampleTick s
  | .drain q => Sys2Proof.Machine.execDrain q s
  | .readStatus sel => Sys2Proof.Machine.execReadStatus sel s
  | .init => Sys2Proof.Machine.execInit s

end Sys2Proof.Machine
end

