-- ==== Sys2Proof/Machine/Step.lean ====
section
/-! DEFINITION. One step: consume one word of the port and complete its rule (20_memory.md R85). -/

namespace Sys2Proof.Machine

open Sys2Proof

/-- The effect of one operation word: the operation it decodes to, or ILLEGAL(w) (30_encoding.md R106,
44_control.md R233, log 11). -/
def execWord (w : Word) (s : State) : Host.Outcome State Fault Refusal :=
  match decode w with
  | .legal i => exec i s
  | .illegal _ w' => .next (illegalOp w' s)

/-- One step of TWBD. With no word at the port TWBD "holds its state unchanged" (60_exceptions.md R269,
log 3). -/
def step (s : State) : Host.Outcome State Fault Refusal :=
  match fetch s with
  | none => .next s
  | some (w, s') => execWord w s'

/-- `s` with the word `w` presented ahead of every other word of the port, so that `step` consumes it
next (log 3). -/
def State.withFetchWord (s : State) (nbits w : Nat) : State :=
  let word : Word := BitVec.ofNat 16 (w % 2 ^ nbits)
  { s with port := ⟨presenterOfWord word, word⟩ :: s.port }

end Sys2Proof.Machine
end

