-- ==== Sys2Proof/Machine/Assembler.lean ====
section
/-! DEFINITION. Pseudo-instructions and their expansions (30_encoding.md R109), and the assembler of one
line of text (R108). Text is a list of characters. -/

namespace Sys2Proof.Machine

open Sys2Proof

/-- What a line of assembler text says: an operation (30_encoding.md R108) or a pseudo-instruction
(R109). -/
inductive AsmLine where
  | op (i : Instr)
  | start
  | stop
  | bit (d : Bool)
  | ack
  | nack
  | txbyte (b : Byte) (a : Bool)
  | lstart
  | lbit (d : Bool)
  | lstop
  | rxbytes (bytes : List Byte)
  | drainAll
  deriving DecidableEq, Repr

/-- The bits of a byte in the order the bus sends them, most significant first (20_memory.md R73). -/
def bitsMsbFirst (b : Byte) : List Bool := (List.range 8).map (fun k => b.getLsbD (7 - k))

/-- `BIT d` (30_encoding.md R109). -/
def bitEvent (d : Bool) : Instr := .evClkRise true d

/-- `TXBYTE b, a`: the eight bits of b, then the acknowledgment slot a (30_encoding.md R109). -/
def byteEvents (b : Byte) (a : Bool) : List Instr := (bitsMsbFirst b ++ [a]).map bitEvent

/-- The operations a line stands for (30_encoding.md R109). -/
def AsmLine.expand : AsmLine → List Instr
  | .op i => [i]
  | .start => [.evDataChg true false]
  | .stop => [.evDataChg true true]
  | .bit d => [bitEvent d]
  | .ack => [bitEvent false]
  | .nack => [bitEvent true]
  | .txbyte b a => byteEvents b a
  | .lstart => [.lineSample true false, .lineSample false false]
  | .lbit d => [.lineSample false d, .lineSample true d, .lineSample false d]
  | .lstop => [.lineSample false false, .lineSample true false, .lineSample true true]
  | .rxbytes bytes => bytes.map Instr.rxPush
  | .drainAll => [.drain 3#2]

/-- A space or a tab (log 18). -/
def isBlank (c : Char) : Bool := c == ' ' || c == '\t' || c == '\r'

/-- The characters without the blanks at either end. -/
def trimBlanks (cs : List Char) : List Char :=
  ((cs.dropWhile isBlank).reverse.dropWhile isBlank).reverse

/-- The line up to its comment (30_encoding.md R108). -/
def withoutComment (cs : List Char) : List Char := cs.takeWhile (· != ';')

/-- The pieces between the commas of a list of characters. -/
def splitAtCommas : List Char → List (List Char)
  | [] => [[]]
  | c :: rest =>
    if c == ',' then [] :: splitAtCommas rest
    else
      match splitAtCommas rest with
      | [] => [[c]]
      | piece :: pieces => (c :: piece) :: pieces

/-- The value of a hexadecimal digit. -/
def hexDigit (c : Char) : Option Nat :=
  let n := c.toNat
  if '0'.toNat ≤ n ∧ n ≤ '9'.toNat then some (n - '0'.toNat)
  else if 'a'.toNat ≤ n ∧ n ≤ 'f'.toNat then some (n - 'a'.toNat + 10)
  else if 'A'.toNat ≤ n ∧ n ≤ 'F'.toNat then some (n - 'A'.toNat + 10)
  else none

/-- The number digits write in a base, most significant first, after the value `acc`. -/
def digitsFrom (base acc : Nat) : List Char → Option Nat
  | [] => some acc
  | c :: rest =>
    match hexDigit c with
    | some v => if v < base then digitsFrom base (base * acc + v) rest else none
    | none => none

/-- A number: decimal, or hexadecimal with a `0x` prefix (30_encoding.md R108). -/
def numberOf : List Char → Option Nat
  | [] => none
  | '0' :: 'x' :: c :: rest => digitsFrom 16 0 (c :: rest)
  | cs => digitsFrom 10 0 cs

/-- A line level or an acknowledgment: 0 or 1 (30_encoding.md R108). -/
def levelOf : Nat → Option Bool
  | 0 => some false
  | 1 => some true
  | _ => none

/-- A byte operand, 0..255 (30_encoding.md R108). -/
def byteOf (n : Nat) : Option Byte := if n < 256 then some (BitVec.ofNat 8 n) else none

/-- An operation of format F-LINE from its two operands (30_encoding.md R108). -/
def lineForm (f : Bool → Bool → Instr) (c d : Nat) : Option AsmLine :=
  match levelOf c, levelOf d with
  | some x, some y => some (.op (f x y))
  | _, _ => none

/-- `DRAIN q`, q in 0..3 (30_encoding.md R108). -/
def drainForm (q : Nat) : Option AsmLine :=
  if q < 4 then some (.op (.drain (BitVec.ofNat 2 q))) else none

/-- `READ_STATUS sel`, sel in 0..6 or 8..10 (30_encoding.md R108). -/
def statusForm (sel : Nat) : Option AsmLine :=
  if sel < 16 ∧ selectorAssigned (BitVec.ofNat 4 sel) = true then
    some (.op (.readStatus (BitVec.ofNat 4 sel)))
  else none

/-- A line from its mnemonic and its operands; an operand out of range is an assembly error
(30_encoding.md R108, R109). -/
def lineOf (mnemonic : String) (operands : List Nat) : Option AsmLine :=
  match mnemonic, operands with
  | "NOP", [] => some (.op .nop)
  | "EV_CLK_RISE", [c, d] => lineForm .evClkRise c d
  | "EV_DATA_CHG", [c, d] => lineForm .evDataChg c d
  | "LINE_SAMPLE", [c, d] => lineForm .lineSample c d
  | "RX_PUSH", [b] => (byteOf b).map (fun v => .op (.rxPush v))
  | "SER_POLL", [] => some (.op .serPoll)
  | "SAMPLE_TICK", [] => some (.op .sampleTick)
  | "DRAIN", [q] => drainForm q
  | "READ_STATUS", [sel] => statusForm sel
  | "INIT", [] => some (.op .init)
  | "START", [] => some .start
  | "STOP", [] => some .stop
  | "BIT", [d] => (levelOf d).map .bit
  | "ACK", [] => some .ack
  | "NACK", [] => some .nack
  | "TXBYTE", [b, a] =>
    match byteOf b, levelOf a with
    | some v, some x => some (.txbyte v x)
    | _, _ => none
  | "LSTART", [] => some .lstart
  | "LBIT", [d] => (levelOf d).map .lbit
  | "LSTOP", [] => some .lstop
  | "RXBYTES", b :: bs => ((b :: bs).mapM byteOf).map .rxbytes
  | "DRAIN_ALL", [] => some .drainAll
  | _, _ => none

/-- The operands of a line, none where nothing follows the mnemonic (30_encoding.md R108). -/
def operandsOf (cs : List Char) : Option (List Nat) :=
  match trimBlanks cs with
  | [] => some []
  | rest => (splitAtCommas rest).mapM (fun piece => numberOf (trimBlanks piece))

/-- The operations a line of text assembles to: none for a line with only a comment, an error (`none`)
for a line that is not of a form of 30_encoding.md R108 or R109. -/
def assembleLine (cs : List Char) : Option (List Instr) :=
  match trimBlanks (withoutComment cs) with
  | [] => some []
  | code =>
    match operandsOf (code.dropWhile (fun c => !isBlank c)) with
    | none => none
    | some operands =>
      (lineOf (String.ofList (code.takeWhile (fun c => !isBlank c))) operands).map AsmLine.expand

/-- The words a text assembles to, one line of it per element (30_encoding.md R108). -/
def assemble (lines : List (List Char)) : Option (List Word) :=
  (lines.mapM assembleLine).map (fun ops => ops.flatten.map encode)

end Sys2Proof.Machine
end

