-- ==== Sys2Proof/Safety.lean ====
section
/-! DEFINITION. What counts as a safe run (10_state.md R61, 60_exceptions.md R270), and the words the
statements use: parts of the state, sequences of operations, and what an operation may emit. -/

namespace Sys2Proof.Machine

open Sys2Proof

/-! ### The invariant and the marks of a run -/

/-- The invariants of 10_state.md R61, except its last, which is about a run's history (`startEvent`),
with the form of the model's own containers: the configuration is in range, the image is canonical and
inside 0..`REG_N` - 1, the frame buffer has `FRAME_LEN` cells and begins with the header bytes accepted
so far (R42). -/
structure State.Inv (s : State) : Prop where
  cfg : s.cfg.wf = true
  bitcnt : s.bitcnt.toNat ≤ 8
  ptr : s.ptr.toNat < s.cfg.regN
  fpos : s.fpos.toNat < s.cfg.frameLen
  rxq : s.rxq.length ≤ s.cfg.rxCap
  win : ∀ q, (s.win.get q).length ≤ s.cfg.wCap
  img : s.img.wf = true
  imgInside : ∀ c ∈ s.img, c.1 < s.cfg.regN
  fbuf : s.fbuf.length = s.cfg.frameLen
  header : s.fbuf.take (min s.fpos.toNat s.cfg.hdrLen) = s.cfg.hdr.take (min s.fpos.toNat s.cfg.hdrLen)

/-- A word with no meaning was presented: "a model should treat it as a fault" of the run
(60_exceptions.md R270). The machine goes on (44_control.md R233). -/
def State.faulted (s : State) : Bool := s.fIllegal

/-- Data was dropped in the run (60_exceptions.md R270). -/
def State.dataDropped (s : State) : Bool := s.fRxovf || s.fWinovf

/-- The operation is a START in this state: EV_DATA_CHG with c = 1, d = 0 (41_twi_decoder.md R132), or a
sample in which SDA falls while SCL was and is high (R147, R148). -/
def startEvent (s : State) : Instr → Bool
  | .nop => false
  | .evClkRise _ _ => false
  | .evDataChg c d => c && !d
  | .lineSample c d => s.feScl && c && s.feSda && !d
  | .rxPush _ => false
  | .serPoll => false
  | .sampleTick => false
  | .drain _ => false
  | .readStatus _ => false
  | .init => false

/-! ### Parts of the state, by owner (10_state.md R48) -/

/-- The decoder's fields and the front end's (written by the edge-trigger context). -/
def decoderPart (s : State) :
    Bool × BitVec 4 × BitVec 8 × Bool × Byte × BitVec 8 × Byte × Memory × Bool × Bool :=
  (s.idle, s.bitcnt, s.bytecnt, s.dir, s.shreg, s.ptr, s.devaddr, s.img, s.feScl, s.feSda)

/-- The serial byte path (written by RX_PUSH and SER_POLL). -/
def serialPart (s : State) : List Byte × BitVec 4 × List Byte := (s.rxq, s.fpos, s.fbuf)

/-- `s` with other sticky flags. -/
def withFlags (rxovf winovf illegal misconfig : Bool) (s : State) : State :=
  { s with fRxovf := rxovf, fWinovf := winovf, fIllegal := illegal, fMisconfig := misconfig }

/-! ### Sequences -/

/-- A list of operations, each completed before the next (20_memory.md R85). -/
def execAll : List Instr → State → Host.Outcome State Fault Refusal
  | [], s => .next s
  | i :: rest, s =>
    match exec i s with
    | .next t => execAll rest t
    | .fault r => .fault r
    | .refused r => .refused r

/-- A list of operation words, each completed before the next (20_memory.md R85). -/
def execWords : List Word → State → Host.Outcome State Fault Refusal
  | [], s => .next s
  | w :: rest, s =>
    match execWord w s with
    | .next t => execWords rest t
    | .fault r => .fault r
    | .refused r => .refused r

/-- The bus events the front end derives from a sample, the data change first (41_twi_decoder.md
R147 to R149). -/
def lineEvents (s : State) (c d : Bool) : List Instr :=
  (if d ≠ s.feSda then [.evDataChg (s.feScl && c) d] else []) ++
    (if s.feScl = false ∧ c = true then [.evClkRise true d] else [])

/-- The data bytes of a transaction, each with ACK (30_encoding.md R109). -/
def ackedBytes (ds : List Byte) : List Instr := ds.flatMap (fun d => byteEvents d false)

/-- What the image reads as after data bytes are stored from index p on, the index wrapping
(41_twi_decoder.md R152). -/
def imageAfter (regN : Nat) : Nat → List Byte → (Nat → Byte) → Nat → Byte
  | _, [], old => old
  | p, d :: ds, old => imageAfter regN ((p + 1) % regN) ds (fun a => if a = p then d else old a)

/-! ### Frames and samples -/

/-- A valid frame: `FRAME_LEN` bytes that begin with the header and sum to 0 modulo 256
(42_frame_sync.md R171, R172). -/
def validFrame (c : Config) (f : List Byte) : Prop :=
  f.length = c.frameLen ∧ f.take c.hdrLen = c.hdr ∧ byteSum f % 256 = 0

/-- The field of a frame at offset o (20_memory.md R76). -/
def fieldOf (f : List Byte) (o : Nat) : RawSample := pair (f.getD o 0x00#8) (f.getD (o + 1) 0x00#8)

/-- The sample a SAMPLE_TICK takes for quantity q: the big-endian pair of a `TWI` source
(43_aggregator.md R202). -/
def tickSample (s : State) (q : Quantity) : Option RawSample :=
  match s.cfg.src.get q with
  | .twi i => some (pair (s.img.read i) (s.img.read ((i + 1) % s.cfg.regN)))
  | .ser _ => none
  | .none => none

/-- The window of q is full when a SAMPLE_TICK wants to append to it (20_memory.md R80). -/
def tickOverflows (s : State) (q : Quantity) : Bool :=
  (tickSample s q).isSome && decide (s.cfg.wCap ≤ (s.win.get q).length)

/-! ### What an operation may emit (60_exceptions.md R251, 10_state.md R60) -/

/-- The operation may emit the report (60_exceptions.md R251, column "emitted by"). -/
def mayReport : Instr → ReportCode → Bool
  | .evClkRise _ _, code => decide (code ∈ [ReportCode.twiAddrNack, .twiPtrNack])
  | .lineSample _ _, code => decide (code ∈ [ReportCode.twiAddrNack, .twiPtrNack])
  | .serPoll, code =>
    decide (code ∈ [ReportCode.serHdrMismatch, .serChecksumMismatch, .windowOverflow])
  | .drain _, code => decide (code ∈ [ReportCode.aggNoData, .aggOutOfRange])
  | .init, code => decide (code = .serMisconfig)
  | .rxPush _, code => decide (code = .rxOverflow)
  | .sampleTick, code => decide (code = .windowOverflow)
  | .nop, _ => false
  | .evDataChg _ _, _ => false
  | .readStatus _, _ => false

/-- How many values a report's info has (60_exceptions.md R251). -/
def infoLength : ReportCode → Nat
  | .twiAddrNack => 1
  | .twiPtrNack => 1
  | .serHdrMismatch => 2
  | .serChecksumMismatch => 2
  | .aggNoData => 1
  | .aggOutOfRange => 2
  | .serMisconfig => 0
  | .rxOverflow => 1
  | .windowOverflow => 1
  | .illegalOp => 1

/-- A report has the severity and the number of info values the table gives its code (60_exceptions.md
R251). -/
def reportFits : Event → Bool
  | .publish _ _ => true
  | .report code sev info => decide (sev = code.severity) && decide (info.length = infoLength code)
  | .result _ => true

/-- The operation may emit the event: a Publish comes from DRAIN, a Result from READ_STATUS, a report as
the table says (43_aggregator.md R205, 44_control.md R231, 60_exceptions.md R251). -/
def mayEmit (i : Instr) : Event → Bool
  | .publish _ _ => mnemonicOf i == "DRAIN"
  | .report code _ _ => mayReport i code
  | .result _ => mnemonicOf i == "READ_STATUS"

end Sys2Proof.Machine
end

