-- ==== Sys2Proof/Certificates/Slice0/Obligations.lean ====
section
/-! DEFINITION. The statements for the provers. Each docstring names the rule it formalises, or says that
the clause rests on the model's own choice and which log entry declares it. -/

open Sys2Proof Sys2Proof.Machine

/-! ### Encoding -/

/-- Decoding the word of a well-formed operation gives the operation back, with every operand at every
value (30_encoding.md R101 to R103, R106). -/
def Obligations.DecodeOfEncodeIsTheOperation : Prop :=
  ∀ i : Instr, i.wf = true → decode (encode i) = .legal i

/-- A word that decodes to an operation is that operation's one word, and the operation is well formed
(30_encoding.md R105, R106): no legal word has a bit the operation does not record. -/
def Obligations.EncodeOfDecodeIsTheWord : Prop :=
  ∀ (w : Word) (i : Instr), decode w = .legal i → encode i = w ∧ i.wf = true

/-- A word is legal exactly when it matches a row of the opcode map and is not READ_STATUS with a
reserved selector; it then decodes to an operation of that row (30_encoding.md R103 to R106). -/
def Obligations.LegalWordsAreThoseOfTheOpcodeMap : Prop :=
  ∀ w : Word,
    ((decode w).isLegal = true ↔
      ∃ r ∈ opcodeRows, w &&& r.mask = r.bits ∧
        ¬(r.mnemonic = "READ_STATUS" ∧ (w &&& 0x000F#16).toNat ∈ [7, 11, 12, 13, 14, 15])) ∧
    ∀ i, decode w = .legal i → ∃ r ∈ opcodeRows, r.mnemonic = mnemonicOf i ∧ w &&& r.mask = r.bits

/-- "There are … 286 legal words, and every other word (65250 of them) is ILLEGAL" (30_encoding.md
R106). -/
def Obligations.LegalWordsNumberTwoHundredEightySix : Prop :=
  (Finset.univ.filter fun w : Word => (decode w).isLegal = true).card = 286 ∧
    (Finset.univ.filter fun w : Word => (decode w).isLegal = false).card = 65250

/-- Words of the spec's encoding vectors decode to the operations they stand for, and its illegal ones to
none (95_test_vectors.md 2.1). -/
def Obligations.VectorWordsDecodeAsListed : Prop :=
  decode 0x0000#16 = .legal .nop ∧ decode 0x1003#16 = .legal (.evClkRise true true) ∧
  decode 0x1001#16 = .legal (.evClkRise false true) ∧
  decode 0x2002#16 = .legal (.evDataChg true false) ∧
  decode 0x3003#16 = .legal (.lineSample true true) ∧ decode 0x40FF#16 = .legal (.rxPush 0xFF#8) ∧
  decode 0x5000#16 = .legal .serPoll ∧ decode 0x6000#16 = .legal .sampleTick ∧
  decode 0x7003#16 = .legal (.drain 3#2) ∧ decode 0x800A#16 = .legal (.readStatus 10#4) ∧
  decode 0x9000#16 = .legal .init ∧ (decode 0x1004#16).isLegal = false ∧
  (decode 0x8007#16).isLegal = false ∧ (decode 0xA000#16).isLegal = false

/-- The pseudo-instructions expand to the words of their table (30_encoding.md R109). -/
def Obligations.PseudoInstructionsExpandToTheirWords : Prop :=
  (AsmLine.expand .start).map encode = [0x2002#16] ∧
  (AsmLine.expand .stop).map encode = [0x2003#16] ∧
  (∀ d : Bool, (AsmLine.expand (.bit d)).map encode = [0x1002#16 + BitVec.ofNat 16 d.toNat]) ∧
  (AsmLine.expand .ack).map encode = [0x1002#16] ∧
  (AsmLine.expand .nack).map encode = [0x1003#16] ∧
  (∀ (b : Byte) (a : Bool), (AsmLine.expand (.txbyte b a)).map encode =
    ([b.getLsbD 7, b.getLsbD 6, b.getLsbD 5, b.getLsbD 4, b.getLsbD 3, b.getLsbD 2, b.getLsbD 1,
      b.getLsbD 0, a].map fun d => 0x1002#16 + BitVec.ofNat 16 d.toNat)) ∧
  (AsmLine.expand .lstart).map encode = [0x3002#16, 0x3000#16] ∧
  (∀ d : Bool, (AsmLine.expand (.lbit d)).map encode =
    [0x3000#16 + BitVec.ofNat 16 d.toNat, 0x3002#16 + BitVec.ofNat 16 d.toNat,
      0x3000#16 + BitVec.ofNat 16 d.toNat]) ∧
  (AsmLine.expand .lstop).map encode = [0x3000#16, 0x3002#16, 0x3003#16] ∧
  (∀ bs : List Byte, (AsmLine.expand (.rxbytes bs)).map encode =
    bs.map fun b => 0x4000#16 + BitVec.ofNat 16 b.toNat) ∧
  (AsmLine.expand .drainAll).map encode = [0x7003#16]

/-- "The assembler never emits an illegal word from a legal-looking line" (30_encoding.md R108): the
words of a text it accepts all decode to operations. -/
def Obligations.AssemblerEmitsOnlyLegalWords : Prop :=
  ∀ (lines : List (List Char)) (ws : List Word),
    assemble lines = some ws → ∀ w ∈ ws, (decode w).isLegal = true

/-! ### The step -/

/-- When the word at the head of the port decodes to an operation, the step is the operation's effect in
the state that has consumed the word: it is gone from the port and the position in the stream has
advanced by 1 (10_state.md R31). -/
def Obligations.StepRunsTheDecodedOperation : Prop :=
  ∀ (s : State) (a : Agent) (w : Word) (rest : List PortWord) (i : Instr),
    s.port = ⟨a, w⟩ :: rest → decode w = .legal i →
      step s = exec i { s with port := rest, stepIndex := s.stepIndex + 1 }

/-- A word that decodes to no operation sets `f_illegal` and reports ILLEGAL_OP with the word; no other
field changes but the consumption of the word (44_control.md R233). -/
def Obligations.StepOnIllegalWordSetsFlagAndReports : Prop :=
  ∀ (s : State) (a : Agent) (w : Word) (rest : List PortWord),
    s.port = ⟨a, w⟩ :: rest → (decode w).isLegal = false →
      step s = .next
        { s with
          port := rest
          stepIndex := s.stepIndex + 1
          fIllegal := true
          out := s.out ++ [.report .illegalOp .warning [w.toNat]] }

/-- With no word at the port the state is held unchanged. That a step of the model then answers the same
state is the model's reading of R269's "Between operations it holds its state unchanged" (log 3). -/
def Obligations.StepWithoutAWordHoldsTheState : Prop :=
  ∀ s : State, s.port = [] → step s = .next s

/-- No step stops: "TWBD has no trap, no exception entry and no fatal condition" (60_exceptions.md
R250). -/
def Obligations.EveryStepAnswersANextState : Prop :=
  ∀ s : State, ∃ t, step s = .next t

/-- A step consumes exactly one word where one waits, and none otherwise, advances the position in the
stream by as many, and leaves the configuration (10_state.md R31; 00_scope.md R9). -/
def Obligations.StepConsumesExactlyOneWord : Prop :=
  ∀ s t : State, step s = .next t →
    t.port = s.port.tail ∧ t.stepIndex = s.stepIndex + min 1 s.port.length ∧ t.cfg = s.cfg

/-- n steps with at least n words waiting do what the first n words do, one after the other in arrival
order, and nothing else: every operation sees all effects of every earlier one and none of any later
one (20_memory.md R85). -/
def Obligations.RunIsItsWordsInArrivalOrder : Prop :=
  ∀ (n : Nat) (s : State), n ≤ s.port.length →
    ∃ u, execWords ((s.port.take n).map PortWord.word) s = .next u ∧
      Host.Core.run Sys2Proof.core n s =
        .next { u with port := s.port.drop n, stepIndex := s.stepIndex + n }

/-- No run depends on which agents presented its words (60_exceptions.md R264). -/
def Obligations.RunIgnoresThePresentingAgents : Prop :=
  ∀ (n : Nat) (s : State) (tagged : List PortWord),
    tagged.map PortWord.word = s.port.map PortWord.word →
      ∃ t, Host.Core.run Sys2Proof.core n s = .next t ∧
        Host.Core.run Sys2Proof.core n { s with port := tagged } =
          .next { t with port := tagged.drop n }

/-- A step only appends to the output stream, and every report it appends has the severity and the number
of info values of its code (10_state.md R60, 60_exceptions.md R251). -/
def Obligations.StepOnlyAppendsFittingReports : Prop :=
  ∀ s t : State, step s = .next t →
    ∃ events, t.out = s.out ++ events ∧ ∀ e ∈ events, reportFits e = true

/-- An operation emits only what is its own to emit: Publish by DRAIN, Result by READ_STATUS, each report
by the operations the table of reports lists for it (60_exceptions.md R251). -/
def Obligations.EventsComeFromTheirOperations : Prop :=
  ∀ (i : Instr) (s t : State), i.wf = true → exec i s = .next t →
    ∃ events, t.out = s.out ++ events ∧ ∀ e ∈ events, mayEmit i e = true

/-! ### Invariants and ownership -/

/-- Every step keeps the invariants of 10_state.md R61 and the form of the model's containers, from every
state that has them. -/
def Obligations.EveryStepKeepsTheStateInvariants : Prop :=
  ∀ s t : State, s.Inv → step s = .next t → t.Inv

/-- The state after reset has the invariants (10_state.md R61). -/
def Obligations.ResetHasTheStateInvariants : Prop := State.reset.Inv

/-- Only a START leaves `idle = 1`, which with `idle = 1` after reset gives the last invariant of
10_state.md R61: when `idle = 0`, at least one START has been seen. -/
def Obligations.OnlyAStartLeavesIdle : Prop :=
  ∀ (i : Instr) (s t : State), s.idle = true → exec i s = .next t → t.idle = false →
    startEvent s i = true

/-- Only the edge-trigger context's operations, and INIT, change the decoder's fields, the image or the
front-end levels (10_state.md R48). -/
def Obligations.OnlyEdgeOperationsWriteTheDecoder : Prop :=
  ∀ (i : Instr) (s t : State), presenter i ≠ .edge → i ≠ .init → exec i s = .next t →
    decoderPart t = decoderPart s

/-- Only RX_PUSH and SER_POLL, and INIT, change the serial byte path (10_state.md R48). -/
def Obligations.OnlySerialOperationsWriteTheSerialPath : Prop :=
  ∀ (i : Instr) (s t : State), (∀ b, i ≠ .rxPush b) → i ≠ .serPoll → i ≠ .init →
    exec i s = .next t → serialPart t = serialPart s

/-- A window changes only by its own path: a SAMPLE_TICK for a `TWI` source, a SER_POLL for a `SER`
source, a drain of its quantity, or INIT (43_aggregator.md R201); no sample enters a window with source
NONE. -/
def Obligations.WindowsChangeOnlyByTheirOwnPath : Prop :=
  ∀ (i : Instr) (s t : State) (q : Quantity), exec i s = .next t →
    t.win.get q ≠ s.win.get q →
      (i = .sampleTick ∧ ∃ k, s.cfg.src.get q = .twi k) ∨
      (i = .serPoll ∧ ∃ o, s.cfg.src.get q = .ser o) ∨
      (∃ k, i = .drain k ∧ (k.toNat = q.index ∨ k.toNat = 3)) ∨ i = .init

/-- Only INIT clears a sticky flag (10_state.md R46). -/
def Obligations.OnlyInitClearsAStickyFlag : Prop :=
  ∀ (i : Instr) (s t : State), i ≠ .init → exec i s = .next t →
    (s.fRxovf = true → t.fRxovf = true) ∧ (s.fWinovf = true → t.fWinovf = true) ∧
    (s.fIllegal = true → t.fIllegal = true) ∧ (s.fMisconfig = true → t.fMisconfig = true)

/-- No sticky flag changes the behaviour of any operation (10_state.md R47), but for READ_STATUS 5, which
shows the flags: with other flags the operation ends in the same state but for the flags. -/
def Obligations.StickyFlagsChangeNoBehaviour : Prop :=
  ∀ (i : Instr) (s t : State) (f1 f2 f3 f4 : Bool), i ≠ .readStatus 5#4 → exec i s = .next t →
    ∃ g1 g2 g3 g4, exec i (withFlags f1 f2 f3 f4 s) = .next (withFlags g1 g2 g3 g4 t)

/-- Nothing reads `devaddr` but READ_STATUS (10_state.md R39): with another device address every other
operation ends in the same state but for the device address. -/
def Obligations.OnlyReadStatusReadsTheDeviceAddress : Prop :=
  ∀ (i : Instr) (s t : State) (v : Byte), i ≠ .readStatus 2#4 → exec i s = .next t →
    ∃ v', exec i { s with devaddr := v } = .next { t with devaddr := v' }

/-- Only `fbuf[0..fpos-1]` is meaningful (10_state.md R43): with any other bytes from `fpos` on, an
operation ends in the same state but for the bytes of `fbuf` from the new `fpos` on. -/
def Obligations.FrameBufferBeyondFposIsNotObserved : Prop :=
  ∀ (i : Instr) (s t : State) (buf : List Byte), s.Inv → buf.length = s.fbuf.length →
    buf.take s.fpos.toNat = s.fbuf.take s.fpos.toNat → exec i s = .next t →
      ∃ buf', exec i { s with fbuf := buf } = .next { t with fbuf := buf' } ∧
        buf'.length = t.fbuf.length ∧ buf'.take t.fpos.toNat = t.fbuf.take t.fpos.toNat

/-! ### The two-wire decoder -/

/-- While idle, EV_CLK_RISE has no effect, whatever its levels (41_twi_decoder.md R134). -/
def Obligations.ClkRiseIsIgnoredWhileIdle : Prop :=
  ∀ (c d : Bool) (s : State), s.idle = true → exec (.evClkRise c d) s = .next s

/-- EV_CLK_RISE at bit index 0 to 7, whatever c is: d is shifted in, most significant bit first, the
direction is latched at bit index 7 of byte index 0, and nothing else changes (41_twi_decoder.md
R135). -/
def Obligations.ClkRiseShiftsInADataBit : Prop :=
  ∀ (c d : Bool) (s : State), s.idle = false → s.bitcnt.toNat ≤ 7 →
    exec (.evClkRise c d) s = .next
      { s with
        shreg := BitVec.ofNat 8 (2 * s.shreg.toNat + d.toNat)
        bitcnt := BitVec.ofNat 4 (s.bitcnt.toNat + 1)
        dir := if s.bytecnt.toNat = 0 ∧ s.bitcnt.toNat = 7 then d else s.dir }

/-- EV_CLK_RISE at the acknowledgment slot of the address byte: NACK goes idle with a report, ACK commits
the device address; then the byte index advances and the bit counter and shift register are cleared
(41_twi_decoder.md R136, R139). -/
def Obligations.ClkRiseEndsTheAddressByte : Prop :=
  ∀ (c d : Bool) (s : State), s.idle = false → s.bitcnt.toNat = 8 → s.bytecnt.toNat = 0 →
    exec (.evClkRise c d) s = .next
      { s with
        idle := d
        devaddr := if d then s.devaddr else s.shreg
        bytecnt := 1#8
        bitcnt := 0#4
        shreg := 0#8
        out := if d then s.out ++ [.report .twiAddrNack .diagnostic [s.shreg.toNat]] else s.out }

/-- EV_CLK_RISE at the acknowledgment slot of byte index 1 of a write: NACK goes idle with a report, ACK
commits the pointer modulo `REG_N`; then the slot ends as every slot does (41_twi_decoder.md R137,
R139). -/
def Obligations.ClkRiseEndsThePointerByte : Prop :=
  ∀ (c d : Bool) (s : State), s.idle = false → s.bitcnt.toNat = 8 → s.bytecnt.toNat = 1 →
    s.dir = false →
    exec (.evClkRise c d) s = .next
      { s with
        idle := d
        ptr := if d then s.ptr else BitVec.ofNat 8 (s.shreg.toNat % s.cfg.regN)
        bytecnt := 2#8
        bitcnt := 0#4
        shreg := 0#8
        out := if d then s.out ++ [.report .twiPtrNack .diagnostic [s.shreg.toNat]] else s.out }

/-- EV_CLK_RISE at the acknowledgment slot of a data byte stores the byte at `img[ptr]` and advances the
pointer modulo `REG_N` whether it is ACKed or not; a NACK ends the transaction without a report. Every
other cell of the image reads as before (41_twi_decoder.md R138, R139). -/
def Obligations.ClkRiseStoresADataByteBeforeTheNackTest : Prop :=
  ∀ (c d : Bool) (s : State), s.Inv → s.idle = false → s.bitcnt.toNat = 8 → s.bytecnt.toNat ≠ 0 →
    ¬(s.bytecnt.toNat = 1 ∧ s.dir = false) →
    ∃ t, exec (.evClkRise c d) s = .next t ∧
      (∀ a, t.img.read a = if a = s.ptr.toNat then s.shreg else s.img.read a) ∧
      t =
        { s with
          img := t.img
          ptr := BitVec.ofNat 8 ((s.ptr.toNat + 1) % s.cfg.regN)
          idle := d
          bytecnt := BitVec.ofNat 8 (min 255 (s.bytecnt.toNat + 1))
          bitcnt := 0#4
          shreg := 0#8 }

/-- EV_DATA_CHG, word `0x2000 + 2*c + d`: START with c = 1 and d = 0, STOP with c = 1 and d = 1, no
effect with c = 0 (41_twi_decoder.md R140). -/
def Obligations.DataChgIsStartStopOrNothing : Prop :=
  (∀ c d : Bool,
    encode (.evDataChg c d) = BitVec.ofNat 16 (0x2000 + 2 * c.toNat + d.toNat)) ∧
  ∀ s : State,
    exec (.evDataChg true false) s =
      .next { s with idle := false, bitcnt := 0#4, bytecnt := 0#8, shreg := 0#8 } ∧
    exec (.evDataChg true true) s = .next { s with idle := true } ∧
    ∀ d, exec (.evDataChg false d) s = .next s

/-- LINE_SAMPLE, word `0x3000 + 2*c + d`, does what the events the front end derives do, the data change
(with `c = fe_scl and c`) before the clock rise (with the new SDA level), and then keeps the two levels
(41_twi_decoder.md R147, R148, R149). -/
def Obligations.LineSampleIsItsDerivedEvents : Prop :=
  (∀ c d : Bool,
    encode (.lineSample c d) = BitVec.ofNat 16 (0x3000 + 2 * c.toNat + d.toNat)) ∧
  ∀ (c d : Bool) (s : State),
    ∃ u, execAll (lineEvents s c d) s = .next u ∧
      exec (.lineSample c d) s = .next { u with feScl := c, feSda := d }

/-- Eight clock rises from bit index 0 assemble the byte sent most significant bit first, and on the
address byte latch its last bit, numeric bit 0, as the direction (20_memory.md R73, 41_twi_decoder.md
R135). -/
def Obligations.EightClockRisesAssembleTheByte : Prop :=
  ∀ (s : State) (b : Byte), s.idle = false → s.bitcnt = 0#4 →
    execAll ((bitsMsbFirst b).map bitEvent) s = .next
      { s with
        shreg := b
        bitcnt := 8#4
        dir := if s.bytecnt = 0#8 then b.getLsbD 0 else s.dir }

/-- A write transaction, from any state with the invariants: START, address byte with R/W 0 ACKed,
pointer byte ACKed, data bytes ACKed, up to eight further clock rises, STOP. The image holds exactly the
data bytes from the pointer on, the index wrapping, and every other cell is as before
(41_twi_decoder.md R151, R152). -/
def Obligations.WriteTransactionFillsTheImage : Prop :=
  ∀ (s : State) (address pointer : Byte) (ds : List Byte) (extra : List Bool),
    s.Inv → address.getLsbD 0 = false → extra.length ≤ 8 →
    ∃ t,
      execAll
          ([.evDataChg true false] ++ byteEvents address false ++ byteEvents pointer false ++
            ackedBytes ds ++ extra.map bitEvent ++ [.evDataChg true true]) s = .next t ∧
        (∀ a, t.img.read a =
          imageAfter s.cfg.regN (pointer.toNat % s.cfg.regN) ds (fun x => s.img.read x) a) ∧
        t.ptr.toNat = (pointer.toNat + ds.length) % s.cfg.regN ∧
        t.devaddr = address ∧ t.idle = true ∧ t.out = s.out ∧ serialPart t = serialPart s ∧
        t.win = s.win

/-- A read transaction, from any state with the invariants: START, address byte with R/W 1 ACKed, data
bytes ACKed, a last data byte NACKed, clock rises, STOP. The image holds the data bytes, the NACKed one
too, from the pointer in force on, and nothing is reported (41_twi_decoder.md R138, R152). -/
def Obligations.ReadTransactionStoresTheNackedByte : Prop :=
  ∀ (s : State) (address : Byte) (ds : List Byte) (last : Byte) (extra : List Bool),
    s.Inv → address.getLsbD 0 = true →
    ∃ t,
      execAll
          ([.evDataChg true false] ++ byteEvents address false ++ ackedBytes ds ++
            byteEvents last true ++ extra.map bitEvent ++ [.evDataChg true true]) s = .next t ∧
        (∀ a, t.img.read a =
          imageAfter s.cfg.regN s.ptr.toNat (ds ++ [last]) (fun x => s.img.read x) a) ∧
        t.ptr.toNat = (s.ptr.toNat + (ds.length + 1)) % s.cfg.regN ∧
        t.devaddr = address ∧ t.idle = true ∧ t.out = s.out ∧ serialPart t = serialPart s ∧
        t.win = s.win

/-! ### The frame synchronizer -/

/-- RX_PUSH, word `0x4000 + b`: with a byte source attached, the byte joins the FIFO, or, on a full
FIFO, is dropped with `f_rxovf` set and RX_OVERFLOW reported; without one it has no effect
(42_frame_sync.md R178). -/
def Obligations.RxPushQueuesOrDropsTheByte : Prop :=
  ∀ (b : Byte) (s : State),
    encode (.rxPush b) = BitVec.ofNat 16 (0x4000 + b.toNat) ∧
    exec (.rxPush b) s = .next
      (if s.cfg.serAttached = false then s
        else if s.rxq.length < s.cfg.rxCap then { s with rxq := s.rxq ++ [b] }
        else
          { s with
            fRxovf := true
            out := s.out ++ [.report .rxOverflow .warning [b.toNat]] })

/-- Without a byte source attached RX_PUSH and SER_POLL change no state and emit nothing, and INIT makes
one report (42_frame_sync.md R181). -/
def Obligations.SerialPathIsANoOpWithoutASource : Prop :=
  ∀ s : State, s.cfg.serAttached = false →
    (∀ b, exec (.rxPush b) s = .next s) ∧ exec .serPoll s = .next s ∧
    ∃ t, exec .init s = .next t ∧ t.out = s.out ++ [.report .serMisconfig .warning []]

/-- SER_POLL with more than `BACKLOG_KEEP` bytes waiting is SER_POLL with only the newest `BACKLOG_KEEP`
waiting and `fpos = 0`; in every case it leaves the FIFO empty, and a second SER_POLL changes nothing
(42_frame_sync.md R179, R180; 20_memory.md R79). -/
def Obligations.SerPollKeepsTheNewestAndEmptiesTheFifo : Prop :=
  ∀ s : State, s.cfg.serAttached = true →
    (s.cfg.backlogKeep < s.rxq.length →
      exec .serPoll s =
        exec .serPoll
          { s with rxq := s.rxq.drop (s.rxq.length - s.cfg.backlogKeep), fpos := 0#4 }) ∧
    ∃ t, exec .serPoll s = .next t ∧ t.rxq = [] ∧ exec .serPoll t = .next t

/-- Bytes are processed oldest first, one at a time: where no byte is skipped, SER_POLL on b and then
`rest` is SER_POLL on b alone followed by SER_POLL on `rest` (42_frame_sync.md R179). -/
def Obligations.SerPollTakesBytesOldestFirst : Prop :=
  ∀ (s : State) (b : Byte) (rest : List Byte), s.rxq = b :: rest →
    s.rxq.length ≤ s.cfg.backlogKeep →
      ∃ u, exec .serPoll { s with rxq := [b] } = .next u ∧
        (s.cfg.serAttached = true → exec .serPoll s = exec .serPoll { u with rxq := rest })

/-- One byte through the synchronizer: header match, header mismatch with its report and the re-test of
`HDR_RESCAN`, body byte, and the last byte with FrameDone, where a frame is valid when its bytes sum to
0 modulo 256 and gives the big-endian field of every serial source in the order 0, 1, 2
(42_frame_sync.md R173, R174, R175, R176, R177). -/
def Obligations.SerPollOfOneByteIsTheByteStep : Prop :=
  ∀ (s : State) (b : Byte), s.Inv → s.cfg.serAttached = true → s.rxq = [b] →
    let stored := s.fbuf.set s.fpos.toNat b
    exec .serPoll s = .next
      (if s.fpos.toNat < s.cfg.hdrLen then
        if s.cfg.hdr[s.fpos.toNat]? = some b then
          { s with rxq := [], fbuf := stored, fpos := BitVec.ofNat 4 (s.fpos.toNat + 1) }
        else
          { s with
            rxq := []
            out :=
              if s.fpos.toNat = 0 then s.out
              else s.out ++ [.report .serHdrMismatch .diagnostic [s.fpos.toNat, b.toNat]]
            fpos := if s.cfg.hdrRescan = true ∧ s.cfg.hdr[0]? = some b then 1#4 else 0#4
            fbuf := if s.cfg.hdrRescan = true ∧ s.cfg.hdr[0]? = some b then s.fbuf.set 0 b else s.fbuf }
      else if s.fpos.toNat + 1 < s.cfg.frameLen then
        { s with rxq := [], fbuf := stored, fpos := BitVec.ofNat 4 (s.fpos.toNat + 1) }
      else if byteSum stored % 256 = 0 then
        { Quantity.all.foldl
            (fun t q =>
              match s.cfg.src.get q with
              | .ser o => winAppend q (fieldOf stored o) t
              | .twi _ => t
              | .none => t)
            { s with rxq := [], fbuf := stored } with
          fpos := 0#4 }
      else
        { s with
          rxq := []
          fbuf := stored
          fpos := 0#4
          out := s.out ++
            [.report .serChecksumMismatch .diagnostic
              [b.toNat, (256 - byteSum (stored.take (s.cfg.frameLen - 1)) % 256) % 256]] })

/-- A frame's last byte is its checksum exactly when the sum of all its bytes is 0 modulo 256
(42_frame_sync.md R172). -/
def Obligations.ChecksumHoldsExactlyWhenTheSumIsZero : Prop :=
  ∀ (c : Config) (f : List Byte), 1 ≤ c.frameLen → f.length = c.frameLen →
    (f.getD (c.frameLen - 1) 0#8 = checksum c f ↔ byteSum f % 256 = 0)

/-- Valid frames one after the other, from `fpos = 0` and with no skip, are all extracted: the window of
each serial source with room gets their fields in order, the synchronizer is back at `fpos = 0` with an
empty FIFO, nothing is reported where every serial window has room, and the other windows and
everything outside the serial path are as before (42_frame_sync.md R176, R177, R182). -/
def Obligations.ValidFramesAreAllExtracted : Prop :=
  ∀ (s : State) (frames : List (List Byte)), s.Inv → s.cfg.serAttached = true → s.fpos = 0#4 →
    s.rxq = frames.flatten → (∀ f ∈ frames, validFrame s.cfg f) →
    s.rxq.length ≤ s.cfg.backlogKeep →
    ∃ t, exec .serPoll s = .next t ∧ t.rxq = [] ∧ t.fpos = 0#4 ∧
      (∀ q o, s.cfg.src.get q = .ser o → (s.win.get q).length + frames.length ≤ s.cfg.wCap →
        t.win.get q = s.win.get q ++ frames.map (fun f => fieldOf f o)) ∧
      (∀ q, (∀ o, s.cfg.src.get q ≠ .ser o) → t.win.get q = s.win.get q) ∧
      ((∀ q o, s.cfg.src.get q = .ser o → (s.win.get q).length + frames.length ≤ s.cfg.wCap) →
        t.out = s.out ∧ t.fWinovf = s.fWinovf) ∧
      t =
        { s with
          rxq := [], fpos := 0#4, fbuf := t.fbuf, win := t.win, fWinovf := t.fWinovf, out := t.out }

/-- A valid frame with one byte after the header changed is discarded whole: no sample is appended,
SER_CHECKSUM_MISMATCH is reported with the received and the expected checksum, and the search is back at
`fpos = 0` (42_frame_sync.md R176, R183). -/
def Obligations.CorruptedFrameIsDiscarded : Prop :=
  ∀ (s : State) (f : List Byte) (k : Nat) (b : Byte), s.Inv → s.cfg.serAttached = true →
    s.fpos = 0#4 → validFrame s.cfg f → s.cfg.hdrLen ≤ k → k < s.cfg.frameLen → f[k]? ≠ some b →
    s.rxq = f.set k b → s.rxq.length ≤ s.cfg.backlogKeep →
    exec .serPoll s = .next
      { s with
        rxq := []
        fpos := 0#4
        fbuf := f.set k b
        out := s.out ++
          [.report .serChecksumMismatch .diagnostic
            [((f.set k b).getD (s.cfg.frameLen - 1) 0#8).toNat,
              (256 - byteSum ((f.set k b).take (s.cfg.frameLen - 1)) % 256) % 256]] }

/-! ### The aggregator -/

/-- A SAMPLE_TICK presented while a transaction is in progress is skipped (43_aggregator.md R203). -/
def Obligations.SampleTickIsSkippedWhileBusy : Prop :=
  ∀ s : State, s.idle = false → exec .sampleTick s = .next s

/-- A SAMPLE_TICK on an idle bus appends to the window of each quantity with a `TWI` source its
big-endian register pair, where the window has room; for a full one it sets `f_winovf` and reports
WINDOW_OVERFLOW, in the order 0, 1, 2; nothing else changes (43_aggregator.md R202; 20_memory.md R74,
R75, R80). -/
def Obligations.SampleTickAppendsTheRegisterPairs : Prop :=
  ∀ s : State, s.idle = true →
    ∃ t, exec .sampleTick s = .next t ∧
      (∀ q, t.win.get q =
        if tickOverflows s q = true then s.win.get q
        else s.win.get q ++ (tickSample s q).toList) ∧
      t =
        { s with
          win := t.win
          fWinovf := s.fWinovf || Quantity.all.any (tickOverflows s)
          out := s.out ++
            (Quantity.all.filter (tickOverflows s)).map
              (fun q => .report .windowOverflow .warning [q.index]) }

/-- The median of n samples is one of them, at most (n - 1) div 2 samples are smaller, and more than
(n - 1) div 2 are smaller or equal, all unsigned: the element at index (n - 1) div 2 of the sorted list,
the lower middle for even n (43_aggregator.md R204). -/
def Obligations.MedianIsTheLowerMiddle : Prop :=
  ∀ L : List RawSample, L ≠ [] →
    median L ∈ L ∧
    L.countP (fun v => decide (v.toNat < (median L).toNat)) ≤ (L.length - 1) / 2 ∧
    (L.length - 1) / 2 < L.countP (fun v => decide (v.toNat ≤ (median L).toNat))

/-- DRAIN of one quantity with an empty window reports AGG_NO_DATA and changes nothing else
(43_aggregator.md R206). -/
def Obligations.DrainOfAnEmptyWindowReportsNoData : Prop :=
  ∀ (q : Quantity) (s : State), s.win.get q = [] →
    exec (.drain (BitVec.ofNat 2 q.index)) s = .next
      { s with out := s.out ++ [.report .aggNoData .warning [q.index]] }

/-- DRAIN of one quantity with samples scales their median exactly, publishes it rounded once to binary32
when it is in the inclusive range and reports AGG_OUT_OF_RANGE with the raw median otherwise, and clears
the window in either case; nothing else changes (43_aggregator.md R207, R208, R209). -/
def Obligations.DrainPublishesOrRejectsAndClears : Prop :=
  ∀ (q : Quantity) (s : State), s.win.get q ≠ [] →
    exec (.drain (BitVec.ofNat 2 q.index)) s = .next
      { s with
        win := s.win.set q []
        out := s.out ++
          [if s.cfg.min.get q ≤
                s.cfg.slope.get q * ((median (s.win.get q)).toNat : Rat) + s.cfg.intercept.get q +
                  s.cfg.cal.get q ∧
              s.cfg.slope.get q * ((median (s.win.get q)).toNat : Rat) + s.cfg.intercept.get q +
                  s.cfg.cal.get q ≤ s.cfg.max.get q then
            .publish q
              (roundBinary32
                (s.cfg.slope.get q * ((median (s.win.get q)).toNat : Rat) + s.cfg.intercept.get q +
                  s.cfg.cal.get q))
          else .report .aggOutOfRange .warning [q.index, (median (s.win.get q)).toNat]] }

/-- DRAIN 3 is the drains of quantities 0, 1 and 2 in that order; it always completes, with one event per
quantity, and leaves all three windows empty (43_aggregator.md R205, R210). -/
def Obligations.DrainAllIsTheThreeDrainsInOrder : Prop :=
  ∀ s : State,
    exec (.drain 3#2) s = execAll [.drain 0#2, .drain 1#2, .drain 2#2] s ∧
    ∃ t, exec (.drain 3#2) s = .next t ∧ t.win = ⟨[], [], []⟩ ∧
      ∃ e0 e1 e2, t = { s with win := t.win, out := s.out ++ [e0, e1, e2] }

/-- `RoundBinary32(x)` below the overflow threshold is the finite binary32 value nearest to x, and of two
equally near values the one whose last significand bit is 0 (43_aggregator.md R209). -/
def Obligations.RoundBinary32IsNearestTiesToEven : Prop :=
  ∀ x : Rat, |x| < 2 ^ 128 - 2 ^ 103 →
    binary32Finite (roundBinary32 x) = true ∧
    ∀ f : Binary32, binary32Finite f = true →
      |x - binary32Value (roundBinary32 x)| ≤ |x - binary32Value f| ∧
      (|x - binary32Value f| = |x - binary32Value (roundBinary32 x)| →
        binary32Value f ≠ binary32Value (roundBinary32 x) →
        (roundBinary32 x).getLsbD 0 = false)

/-- `RoundBinary32` gives +0 for 0, and from 2^128 - 2^103 in magnitude on an infinity of the sign of x
(43_aggregator.md R209). -/
def Obligations.RoundBinary32OfZeroAndOverflow : Prop :=
  roundBinary32 0 = 0x00000000#32 ∧
  (∀ x : Rat, 2 ^ 128 - 2 ^ 103 ≤ x → roundBinary32 x = 0x7F800000#32) ∧
  ∀ x : Rat, x ≤ -(2 ^ 128 - 2 ^ 103) → roundBinary32 x = 0xFF800000#32

/-! ### Control and reset -/

/-- NOP, word 0x0000, leaves the state unchanged and emits nothing; every other word with opcode 0 is
illegal (44_control.md R230). -/
def Obligations.NopLeavesTheState : Prop :=
  encode .nop = 0x0000#16 ∧
  (∀ w : Word, w.extractLsb' 12 4 = 0x0#4 → w ≠ 0x0000#16 → (decode w).isLegal = false) ∧
  ∀ s : State, exec .nop s = .next s

/-- READ_STATUS emits the status register its selector names and changes nothing else: DSTAT, DPTR,
DADDR, SSTAT, RXCNT, FLAGS, FESTAT, WCNT0 to WCNT2, each with its fields at their places (10_state.md
R50 to R57, 44_control.md R231). -/
def Obligations.ReadStatusEmitsTheRegister : Prop :=
  ∀ s : State, s.Inv →
    ∀ p ∈ ([
        (0#4, s.idle.toNat + 2 * s.bitcnt.toNat + 32 * s.dir.toNat + 256 * s.bytecnt.toNat),
        (1#4, s.ptr.toNat + 256 * s.shreg.toNat),
        (2#4, s.devaddr.toNat),
        (3#4, s.fpos.toNat),
        (4#4, s.rxq.length),
        (5#4, s.fRxovf.toNat + 2 * s.fWinovf.toNat + 4 * s.fIllegal.toNat + 8 * s.fMisconfig.toNat),
        (6#4, s.feScl.toNat + 2 * s.feSda.toNat),
        (8#4, (s.win.get .temperature).length),
        (9#4, (s.win.get .humidity).length),
        (10#4, (s.win.get .gas).length)] : List (BitVec 4 × Nat)),
      p.2 < 65536 ∧
      exec (.readStatus p.1) s =
        .next { s with out := s.out ++ [.result (BitVec.ofNat 16 p.2)] }

/-- READ_STATUS with a reserved selector acts as the illegal word it is and returns no result (10_state.md
R58, 44_control.md R233). The decoder never gives it to `exec`; what `exec` does with it is the model's
choice (log 11). -/
def Obligations.ReadStatusOfAReservedSelectorIsIllegal : Prop :=
  ∀ (sel : BitVec 4) (s : State), sel.toNat ∈ [7, 11, 12, 13, 14, 15] →
    exec (.readStatus sel) s = .next
      { s with
        fIllegal := true
        out := s.out ++ [.report .illegalOp .warning [0x8000 + sel.toNat]] }

/-- INIT, word 0x9000, leaves every field of 10_state.md R32 at its reset value and emits nothing, but
for `f_misconfig` and the SER_MISCONFIG report where no byte source is attached (44_control.md R232). -/
def Obligations.InitLeavesTheResetState : Prop :=
  encode .init = 0x9000#16 ∧
  ∀ s : State,
    exec .init s = .next
      { State.powerOn s.cfg with
        port := s.port
        stepIndex := s.stepIndex
        fMisconfig := !s.cfg.serAttached
        out := if s.cfg.serAttached then s.out else s.out ++ [.report .serMisconfig .warning []] }

/-- The reset values, under every configuration (which one `State.reset` has is the model's choice, log 1
and log 2): no transaction, every register 0, every image cell 0x00,
both line levels 1, the FIFO and the windows empty, no flag set, nothing emitted
(70_reset_and_hazards.md R280, R281). -/
def Obligations.ResetValuesAreTheSpecs : Prop :=
  State.reset = State.powerOn Config.atReset ∧
  ∀ c : Config,
    let s := State.powerOn c
    s.idle = true ∧ s.bitcnt = 0#4 ∧ s.bytecnt = 0#8 ∧ s.dir = false ∧ s.shreg = 0#8 ∧ s.ptr = 0#8 ∧
    s.devaddr = 0#8 ∧ (∀ a, s.img.read a = 0#8) ∧ s.feScl = true ∧ s.feSda = true ∧ s.fpos = 0#4 ∧
    s.fbuf.length = c.frameLen ∧ (∀ b ∈ s.fbuf, b = 0#8) ∧ s.rxq = [] ∧ (∀ q, s.win.get q = []) ∧
    s.fRxovf = false ∧ s.fWinovf = false ∧ s.fIllegal = false ∧ s.fMisconfig = false ∧ s.out = []
end

