-- ==== Sys2Proof/Laws/Memory.lean ====
section
/-! SUPPORT. Byte cells: every operation keeps the canonical form, a read after a write, and that equal
readings mean equal memories (20_memory.md R71). -/

namespace Sys2Proof.Machine

open Sys2Proof

@[simp] theorem Memory.read_nil (a : Nat) : Memory.read [] a = unlistedByte := rfl

@[simp] theorem Memory.read_cons (c : Host.Cell) (m : Memory) (a : Nat) :
    Memory.read (c :: m) a = if c.1 = a then c.2 else m.read a := rfl

@[simp] theorem Memory.wf_nil : Memory.wf [] = true := rfl

theorem Memory.wf_cons (c : Host.Cell) (m : Memory) :
    Memory.wf (c :: m) = true ↔ c.2 ≠ unlistedByte ∧ Memory.above c.1 m = true ∧ m.wf = true := by
  simp [Memory.wf, and_assoc]

theorem Memory.above_iff (a : Nat) (m : Memory) : Memory.above a m = true ↔ ∀ c ∈ m, a < c.1 := by
  simp [Memory.above]

/-- Below its first address a memory lists nothing. -/
theorem Memory.read_of_above (a b : Nat) (m : Memory) (h : Memory.above a m = true) (hb : b ≤ a) :
    m.read b = unlistedByte := by
  induction m with
  | nil => rfl
  | cons c m ih =>
    rw [Memory.above_iff] at h
    have hc : a < c.1 := h c (by simp)
    rw [Memory.read_cons, if_neg (by omega)]
    exact ih ((Memory.above_iff a m).2 fun x hx => h x (by simp [hx]))

theorem Memory.read_put (m : Memory) (a b : Nat) (v : Byte) (h : Memory.above a m = true) :
    (Memory.put a v m).read b = if b = a then v else m.read b := by
  unfold Memory.put
  split
  · rename_i hv
    split
    · rename_i hb
      rw [Memory.read_of_above a b m h (by omega), hv]
    · rfl
  · rw [Memory.read_cons]
    simp only [eq_comm]

/-- A read after a write: the byte written at its address, every other byte as before. -/
theorem Memory.read_write (m : Memory) (a b : Nat) (v : Byte) (h : m.wf = true) :
    (m.write a v).read b = if b = a then v else m.read b := by
  induction m with
  | nil => exact Memory.read_put [] a b v rfl
  | cons c m ih =>
    obtain ⟨-, hab, hm⟩ := (Memory.wf_cons c m).1 h
    rw [Memory.above_iff] at hab
    unfold Memory.write
    split
    · rename_i hlt
      refine Memory.read_put (c :: m) a b v ((Memory.above_iff _ _).2 fun x hx => ?_)
      rcases List.mem_cons.1 hx with rfl | hx
      · exact hlt
      · exact hlt.trans (hab x hx)
    · split
      · rename_i _ heq
        rw [Memory.read_put m a b v ((Memory.above_iff _ _).2 fun x hx => heq ▸ hab x hx),
          Memory.read_cons, heq]
        split
        · rfl
        · rename_i hne
          rw [if_neg (fun h => hne h.symm)]
      · rename_i hlt hne
        rw [Memory.read_cons, ih hm, Memory.read_cons]
        split <;> split <;> simp_all

/-- Every listed address after a write is the written one or was listed. -/
theorem Memory.mem_write (m : Memory) (a : Nat) (v : Byte) (x : Host.Cell) (h : x ∈ m.write a v) :
    x.1 = a ∨ x ∈ m := by
  induction m with
  | nil =>
    simp only [Memory.write, Memory.put] at h
    split at h <;> simp_all
  | cons c m ih =>
    simp only [Memory.write, Memory.put] at h
    split at h
    · split at h
      · exact .inr h
      · rcases List.mem_cons.1 h with rfl | h
        · exact .inl rfl
        · exact .inr h
    · split at h
      · split at h
        · exact .inr (List.mem_cons_of_mem _ h)
        · rcases List.mem_cons.1 h with rfl | h
          · exact .inl rfl
          · exact .inr (List.mem_cons_of_mem _ h)
      · rcases List.mem_cons.1 h with rfl | h
        · simp
        · rcases ih h with h | h <;> simp [h]

/-- A write keeps the canonical form. -/
theorem Memory.write_wf (m : Memory) (a : Nat) (v : Byte) (h : m.wf = true) :
    (m.write a v).wf = true := by
  induction m with
  | nil =>
    simp only [Memory.write, Memory.put]
    split
    · rfl
    · rename_i hv
      exact (Memory.wf_cons _ _).2 ⟨hv, rfl, rfl⟩
  | cons c m ih =>
    obtain ⟨hc, hab, hm⟩ := (Memory.wf_cons c m).1 h
    simp only [Memory.write, Memory.put]
    split
    · rename_i hlt
      split
      · exact h
      · rename_i hv
        refine (Memory.wf_cons _ _).2 ⟨hv, (Memory.above_iff _ _).2 fun x hx => ?_, h⟩
        rcases List.mem_cons.1 hx with rfl | hx
        · exact hlt
        · exact hlt.trans ((Memory.above_iff _ _).1 hab x hx)
    · split
      · rename_i heq
        split
        · exact hm
        · rename_i hv
          exact (Memory.wf_cons _ _).2 ⟨hv, by rw [heq]; exact hab, hm⟩
      · rename_i hlt hne
        refine (Memory.wf_cons _ _).2 ⟨hc, (Memory.above_iff _ _).2 fun x hx => ?_, ih hm⟩
        rcases Memory.mem_write m a v x hx with h | h
        · omega
        · exact (Memory.above_iff _ _).1 hab x h

/-- A write inside a bound keeps the memory inside it. -/
theorem Memory.write_inside (m : Memory) (a n : Nat) (v : Byte) (h : ∀ c ∈ m, c.1 < n) (ha : a < n) :
    ∀ c ∈ m.write a v, c.1 < n := by
  intro c hc
  rcases Memory.mem_write m a v c hc with hc | hc
  · omega
  · exact h c hc

/-- Canonical memories that read the same everywhere are the same list. -/
theorem Memory.ext_of_read (m m' : Memory) (h : m.wf = true) (h' : m'.wf = true)
    (hr : ∀ a, m.read a = m'.read a) : m = m' := by
  induction m generalizing m' with
  | nil =>
    cases m' with
    | nil => rfl
    | cons c m' =>
      have := hr c.1
      simp only [Memory.read_nil, Memory.read_cons, if_true] at this
      exact absurd this.symm ((Memory.wf_cons _ _).1 h').1
  | cons c m ih =>
    obtain ⟨hc, hab, hm⟩ := (Memory.wf_cons c m).1 h
    cases m' with
    | nil =>
      have := hr c.1
      simp only [Memory.read_nil, Memory.read_cons, if_true] at this
      exact absurd this hc
    | cons c' m' =>
      obtain ⟨hc', hab', hm'⟩ := (Memory.wf_cons c' m').1 h'
      have haddr : c.1 = c'.1 := by
        rcases Nat.lt_trichotomy c.1 c'.1 with hlt | heq | hlt
        · have := hr c.1
          rw [Memory.read_cons, if_pos rfl, Memory.read_cons, if_neg (by omega),
            Memory.read_of_above c'.1 c.1 m' hab' (by omega)] at this
          exact absurd this hc
        · exact heq
        · have := hr c'.1
          rw [Memory.read_cons, if_neg (by omega), Memory.read_cons, if_pos rfl,
            Memory.read_of_above c.1 c'.1 m hab (by omega)] at this
          exact absurd this.symm hc'
      have hval : c.2 = c'.2 := by
        have := hr c.1
        rwa [Memory.read_cons, if_pos rfl, Memory.read_cons, if_pos haddr.symm] at this
      have hrest : m = m' := by
        refine ih m' hm hm' fun a => ?_
        by_cases hle : a ≤ c.1
        · rw [Memory.read_of_above c.1 a m hab hle,
            Memory.read_of_above c'.1 a m' hab' (by omega)]
        · have := hr a
          rwa [Memory.read_cons, if_neg (by omega), Memory.read_cons, if_neg (by omega)] at this
      rw [hrest, Prod.ext haddr hval]

end Sys2Proof.Machine
end

