-- ==== Sys2Proof/Laws/State.lean ====
section
/-! SUPPORT. For every unbranching update of the state, what each field is after it: one lemma per field
per update, true by rfl. -/

namespace Sys2Proof.Machine

open Sys2Proof

/-! ### emit -/

@[simp] theorem emit_cfg (e : Event) (s : State) : (emit e s).cfg = s.cfg := rfl
@[simp] theorem emit_idle (e : Event) (s : State) : (emit e s).idle = s.idle := rfl
@[simp] theorem emit_bitcnt (e : Event) (s : State) : (emit e s).bitcnt = s.bitcnt := rfl
@[simp] theorem emit_bytecnt (e : Event) (s : State) : (emit e s).bytecnt = s.bytecnt := rfl
@[simp] theorem emit_dir (e : Event) (s : State) : (emit e s).dir = s.dir := rfl
@[simp] theorem emit_shreg (e : Event) (s : State) : (emit e s).shreg = s.shreg := rfl
@[simp] theorem emit_ptr (e : Event) (s : State) : (emit e s).ptr = s.ptr := rfl
@[simp] theorem emit_devaddr (e : Event) (s : State) : (emit e s).devaddr = s.devaddr := rfl
@[simp] theorem emit_img (e : Event) (s : State) : (emit e s).img = s.img := rfl
@[simp] theorem emit_feScl (e : Event) (s : State) : (emit e s).feScl = s.feScl := rfl
@[simp] theorem emit_feSda (e : Event) (s : State) : (emit e s).feSda = s.feSda := rfl
@[simp] theorem emit_fpos (e : Event) (s : State) : (emit e s).fpos = s.fpos := rfl
@[simp] theorem emit_fbuf (e : Event) (s : State) : (emit e s).fbuf = s.fbuf := rfl
@[simp] theorem emit_rxq (e : Event) (s : State) : (emit e s).rxq = s.rxq := rfl
@[simp] theorem emit_win (e : Event) (s : State) : (emit e s).win = s.win := rfl
@[simp] theorem emit_fRxovf (e : Event) (s : State) : (emit e s).fRxovf = s.fRxovf := rfl
@[simp] theorem emit_fWinovf (e : Event) (s : State) : (emit e s).fWinovf = s.fWinovf := rfl
@[simp] theorem emit_fIllegal (e : Event) (s : State) : (emit e s).fIllegal = s.fIllegal := rfl
@[simp] theorem emit_fMisconfig (e : Event) (s : State) :
    (emit e s).fMisconfig = s.fMisconfig := rfl
@[simp] theorem emit_port (e : Event) (s : State) : (emit e s).port = s.port := rfl
@[simp] theorem emit_stepIndex (e : Event) (s : State) : (emit e s).stepIndex = s.stepIndex := rfl
@[simp] theorem emit_out (e : Event) (s : State) : (emit e s).out = s.out ++ [e] := rfl

/-! ### emitReport -/

@[simp] theorem emitReport_cfg (code : ReportCode) (sev : Severity) (info : List Nat) (s : State) :
    (emitReport code sev info s).cfg = s.cfg := rfl
@[simp] theorem emitReport_idle (code : ReportCode) (sev : Severity) (info : List Nat) (s : State) :
    (emitReport code sev info s).idle = s.idle := rfl
@[simp] theorem emitReport_bitcnt (code : ReportCode) (sev : Severity) (info : List Nat) (s : State) :
    (emitReport code sev info s).bitcnt = s.bitcnt := rfl
@[simp] theorem emitReport_bytecnt (code : ReportCode) (sev : Severity) (info : List Nat) (s : State) :
    (emitReport code sev info s).bytecnt = s.bytecnt := rfl
@[simp] theorem emitReport_dir (code : ReportCode) (sev : Severity) (info : List Nat) (s : State) :
    (emitReport code sev info s).dir = s.dir := rfl
@[simp] theorem emitReport_shreg (code : ReportCode) (sev : Severity) (info : List Nat) (s : State) :
    (emitReport code sev info s).shreg = s.shreg := rfl
@[simp] theorem emitReport_ptr (code : ReportCode) (sev : Severity) (info : List Nat) (s : State) :
    (emitReport code sev info s).ptr = s.ptr := rfl
@[simp] theorem emitReport_devaddr (code : ReportCode) (sev : Severity) (info : List Nat) (s : State) :
    (emitReport code sev info s).devaddr = s.devaddr := rfl
@[simp] theorem emitReport_img (code : ReportCode) (sev : Severity) (info : List Nat) (s : State) :
    (emitReport code sev info s).img = s.img := rfl
@[simp] theorem emitReport_feScl (code : ReportCode) (sev : Severity) (info : List Nat) (s : State) :
    (emitReport code sev info s).feScl = s.feScl := rfl
@[simp] theorem emitReport_feSda (code : ReportCode) (sev : Severity) (info : List Nat) (s : State) :
    (emitReport code sev info s).feSda = s.feSda := rfl
@[simp] theorem emitReport_fpos (code : ReportCode) (sev : Severity) (info : List Nat) (s : State) :
    (emitReport code sev info s).fpos = s.fpos := rfl
@[simp] theorem emitReport_fbuf (code : ReportCode) (sev : Severity) (info : List Nat) (s : State) :
    (emitReport code sev info s).fbuf = s.fbuf := rfl
@[simp] theorem emitReport_rxq (code : ReportCode) (sev : Severity) (info : List Nat) (s : State) :
    (emitReport code sev info s).rxq = s.rxq := rfl
@[simp] theorem emitReport_win (code : ReportCode) (sev : Severity) (info : List Nat) (s : State) :
    (emitReport code sev info s).win = s.win := rfl
@[simp] theorem emitReport_fRxovf (code : ReportCode) (sev : Severity) (info : List Nat) (s : State) :
    (emitReport code sev info s).fRxovf = s.fRxovf := rfl
@[simp] theorem emitReport_fWinovf (code : ReportCode) (sev : Severity) (info : List Nat) (s : State) :
    (emitReport code sev info s).fWinovf = s.fWinovf := rfl
@[simp] theorem emitReport_fIllegal (code : ReportCode) (sev : Severity) (info : List Nat) (s : State) :
    (emitReport code sev info s).fIllegal = s.fIllegal := rfl
@[simp] theorem emitReport_fMisconfig (code : ReportCode) (sev : Severity) (info : List Nat) (s : State) :
    (emitReport code sev info s).fMisconfig = s.fMisconfig := rfl
@[simp] theorem emitReport_port (code : ReportCode) (sev : Severity) (info : List Nat) (s : State) :
    (emitReport code sev info s).port = s.port := rfl
@[simp] theorem emitReport_stepIndex (code : ReportCode) (sev : Severity) (info : List Nat) (s : State) :
    (emitReport code sev info s).stepIndex = s.stepIndex := rfl
@[simp] theorem emitReport_out (code : ReportCode) (sev : Severity) (info : List Nat) (s : State) :
    (emitReport code sev info s).out = s.out ++ [.report code sev info] := rfl

/-! ### emitPublish -/

@[simp] theorem emitPublish_cfg (q : Quantity) (f : Binary32) (s : State) :
    (emitPublish q f s).cfg = s.cfg := rfl
@[simp] theorem emitPublish_idle (q : Quantity) (f : Binary32) (s : State) :
    (emitPublish q f s).idle = s.idle := rfl
@[simp] theorem emitPublish_bitcnt (q : Quantity) (f : Binary32) (s : State) :
    (emitPublish q f s).bitcnt = s.bitcnt := rfl
@[simp] theorem emitPublish_bytecnt (q : Quantity) (f : Binary32) (s : State) :
    (emitPublish q f s).bytecnt = s.bytecnt := rfl
@[simp] theorem emitPublish_dir (q : Quantity) (f : Binary32) (s : State) :
    (emitPublish q f s).dir = s.dir := rfl
@[simp] theorem emitPublish_shreg (q : Quantity) (f : Binary32) (s : State) :
    (emitPublish q f s).shreg = s.shreg := rfl
@[simp] theorem emitPublish_ptr (q : Quantity) (f : Binary32) (s : State) :
    (emitPublish q f s).ptr = s.ptr := rfl
@[simp] theorem emitPublish_devaddr (q : Quantity) (f : Binary32) (s : State) :
    (emitPublish q f s).devaddr = s.devaddr := rfl
@[simp] theorem emitPublish_img (q : Quantity) (f : Binary32) (s : State) :
    (emitPublish q f s).img = s.img := rfl
@[simp] theorem emitPublish_feScl (q : Quantity) (f : Binary32) (s : State) :
    (emitPublish q f s).feScl = s.feScl := rfl
@[simp] theorem emitPublish_feSda (q : Quantity) (f : Binary32) (s : State) :
    (emitPublish q f s).feSda = s.feSda := rfl
@[simp] theorem emitPublish_fpos (q : Quantity) (f : Binary32) (s : State) :
    (emitPublish q f s).fpos = s.fpos := rfl
@[simp] theorem emitPublish_fbuf (q : Quantity) (f : Binary32) (s : State) :
    (emitPublish q f s).fbuf = s.fbuf := rfl
@[simp] theorem emitPublish_rxq (q : Quantity) (f : Binary32) (s : State) :
    (emitPublish q f s).rxq = s.rxq := rfl
@[simp] theorem emitPublish_win (q : Quantity) (f : Binary32) (s : State) :
    (emitPublish q f s).win = s.win := rfl
@[simp] theorem emitPublish_fRxovf (q : Quantity) (f : Binary32) (s : State) :
    (emitPublish q f s).fRxovf = s.fRxovf := rfl
@[simp] theorem emitPublish_fWinovf (q : Quantity) (f : Binary32) (s : State) :
    (emitPublish q f s).fWinovf = s.fWinovf := rfl
@[simp] theorem emitPublish_fIllegal (q : Quantity) (f : Binary32) (s : State) :
    (emitPublish q f s).fIllegal = s.fIllegal := rfl
@[simp] theorem emitPublish_fMisconfig (q : Quantity) (f : Binary32) (s : State) :
    (emitPublish q f s).fMisconfig = s.fMisconfig := rfl
@[simp] theorem emitPublish_port (q : Quantity) (f : Binary32) (s : State) :
    (emitPublish q f s).port = s.port := rfl
@[simp] theorem emitPublish_stepIndex (q : Quantity) (f : Binary32) (s : State) :
    (emitPublish q f s).stepIndex = s.stepIndex := rfl
@[simp] theorem emitPublish_out (q : Quantity) (f : Binary32) (s : State) :
    (emitPublish q f s).out = s.out ++ [.publish q f] := rfl

/-! ### emitResult -/

@[simp] theorem emitResult_cfg (v : Word) (s : State) : (emitResult v s).cfg = s.cfg := rfl
@[simp] theorem emitResult_idle (v : Word) (s : State) : (emitResult v s).idle = s.idle := rfl
@[simp] theorem emitResult_bitcnt (v : Word) (s : State) : (emitResult v s).bitcnt = s.bitcnt := rfl
@[simp] theorem emitResult_bytecnt (v : Word) (s : State) :
    (emitResult v s).bytecnt = s.bytecnt := rfl
@[simp] theorem emitResult_dir (v : Word) (s : State) : (emitResult v s).dir = s.dir := rfl
@[simp] theorem emitResult_shreg (v : Word) (s : State) : (emitResult v s).shreg = s.shreg := rfl
@[simp] theorem emitResult_ptr (v : Word) (s : State) : (emitResult v s).ptr = s.ptr := rfl
@[simp] theorem emitResult_devaddr (v : Word) (s : State) :
    (emitResult v s).devaddr = s.devaddr := rfl
@[simp] theorem emitResult_img (v : Word) (s : State) : (emitResult v s).img = s.img := rfl
@[simp] theorem emitResult_feScl (v : Word) (s : State) : (emitResult v s).feScl = s.feScl := rfl
@[simp] theorem emitResult_feSda (v : Word) (s : State) : (emitResult v s).feSda = s.feSda := rfl
@[simp] theorem emitResult_fpos (v : Word) (s : State) : (emitResult v s).fpos = s.fpos := rfl
@[simp] theorem emitResult_fbuf (v : Word) (s : State) : (emitResult v s).fbuf = s.fbuf := rfl
@[simp] theorem emitResult_rxq (v : Word) (s : State) : (emitResult v s).rxq = s.rxq := rfl
@[simp] theorem emitResult_win (v : Word) (s : State) : (emitResult v s).win = s.win := rfl
@[simp] theorem emitResult_fRxovf (v : Word) (s : State) : (emitResult v s).fRxovf = s.fRxovf := rfl
@[simp] theorem emitResult_fWinovf (v : Word) (s : State) :
    (emitResult v s).fWinovf = s.fWinovf := rfl
@[simp] theorem emitResult_fIllegal (v : Word) (s : State) :
    (emitResult v s).fIllegal = s.fIllegal := rfl
@[simp] theorem emitResult_fMisconfig (v : Word) (s : State) :
    (emitResult v s).fMisconfig = s.fMisconfig := rfl
@[simp] theorem emitResult_port (v : Word) (s : State) : (emitResult v s).port = s.port := rfl
@[simp] theorem emitResult_stepIndex (v : Word) (s : State) :
    (emitResult v s).stepIndex = s.stepIndex := rfl
@[simp] theorem emitResult_out (v : Word) (s : State) :
    (emitResult v s).out = s.out ++ [.result v] := rfl

/-! ### setRxovf -/

@[simp] theorem setRxovf_cfg (s : State) : (setRxovf s).cfg = s.cfg := rfl
@[simp] theorem setRxovf_idle (s : State) : (setRxovf s).idle = s.idle := rfl
@[simp] theorem setRxovf_bitcnt (s : State) : (setRxovf s).bitcnt = s.bitcnt := rfl
@[simp] theorem setRxovf_bytecnt (s : State) : (setRxovf s).bytecnt = s.bytecnt := rfl
@[simp] theorem setRxovf_dir (s : State) : (setRxovf s).dir = s.dir := rfl
@[simp] theorem setRxovf_shreg (s : State) : (setRxovf s).shreg = s.shreg := rfl
@[simp] theorem setRxovf_ptr (s : State) : (setRxovf s).ptr = s.ptr := rfl
@[simp] theorem setRxovf_devaddr (s : State) : (setRxovf s).devaddr = s.devaddr := rfl
@[simp] theorem setRxovf_img (s : State) : (setRxovf s).img = s.img := rfl
@[simp] theorem setRxovf_feScl (s : State) : (setRxovf s).feScl = s.feScl := rfl
@[simp] theorem setRxovf_feSda (s : State) : (setRxovf s).feSda = s.feSda := rfl
@[simp] theorem setRxovf_fpos (s : State) : (setRxovf s).fpos = s.fpos := rfl
@[simp] theorem setRxovf_fbuf (s : State) : (setRxovf s).fbuf = s.fbuf := rfl
@[simp] theorem setRxovf_rxq (s : State) : (setRxovf s).rxq = s.rxq := rfl
@[simp] theorem setRxovf_win (s : State) : (setRxovf s).win = s.win := rfl
@[simp] theorem setRxovf_fRxovf (s : State) : (setRxovf s).fRxovf = true := rfl
@[simp] theorem setRxovf_fWinovf (s : State) : (setRxovf s).fWinovf = s.fWinovf := rfl
@[simp] theorem setRxovf_fIllegal (s : State) : (setRxovf s).fIllegal = s.fIllegal := rfl
@[simp] theorem setRxovf_fMisconfig (s : State) : (setRxovf s).fMisconfig = s.fMisconfig := rfl
@[simp] theorem setRxovf_port (s : State) : (setRxovf s).port = s.port := rfl
@[simp] theorem setRxovf_stepIndex (s : State) : (setRxovf s).stepIndex = s.stepIndex := rfl
@[simp] theorem setRxovf_out (s : State) : (setRxovf s).out = s.out := rfl

/-! ### setWinovf -/

@[simp] theorem setWinovf_cfg (s : State) : (setWinovf s).cfg = s.cfg := rfl
@[simp] theorem setWinovf_idle (s : State) : (setWinovf s).idle = s.idle := rfl
@[simp] theorem setWinovf_bitcnt (s : State) : (setWinovf s).bitcnt = s.bitcnt := rfl
@[simp] theorem setWinovf_bytecnt (s : State) : (setWinovf s).bytecnt = s.bytecnt := rfl
@[simp] theorem setWinovf_dir (s : State) : (setWinovf s).dir = s.dir := rfl
@[simp] theorem setWinovf_shreg (s : State) : (setWinovf s).shreg = s.shreg := rfl
@[simp] theorem setWinovf_ptr (s : State) : (setWinovf s).ptr = s.ptr := rfl
@[simp] theorem setWinovf_devaddr (s : State) : (setWinovf s).devaddr = s.devaddr := rfl
@[simp] theorem setWinovf_img (s : State) : (setWinovf s).img = s.img := rfl
@[simp] theorem setWinovf_feScl (s : State) : (setWinovf s).feScl = s.feScl := rfl
@[simp] theorem setWinovf_feSda (s : State) : (setWinovf s).feSda = s.feSda := rfl
@[simp] theorem setWinovf_fpos (s : State) : (setWinovf s).fpos = s.fpos := rfl
@[simp] theorem setWinovf_fbuf (s : State) : (setWinovf s).fbuf = s.fbuf := rfl
@[simp] theorem setWinovf_rxq (s : State) : (setWinovf s).rxq = s.rxq := rfl
@[simp] theorem setWinovf_win (s : State) : (setWinovf s).win = s.win := rfl
@[simp] theorem setWinovf_fRxovf (s : State) : (setWinovf s).fRxovf = s.fRxovf := rfl
@[simp] theorem setWinovf_fWinovf (s : State) : (setWinovf s).fWinovf = true := rfl
@[simp] theorem setWinovf_fIllegal (s : State) : (setWinovf s).fIllegal = s.fIllegal := rfl
@[simp] theorem setWinovf_fMisconfig (s : State) : (setWinovf s).fMisconfig = s.fMisconfig := rfl
@[simp] theorem setWinovf_port (s : State) : (setWinovf s).port = s.port := rfl
@[simp] theorem setWinovf_stepIndex (s : State) : (setWinovf s).stepIndex = s.stepIndex := rfl
@[simp] theorem setWinovf_out (s : State) : (setWinovf s).out = s.out := rfl

/-! ### setIllegal -/

@[simp] theorem setIllegal_cfg (s : State) : (setIllegal s).cfg = s.cfg := rfl
@[simp] theorem setIllegal_idle (s : State) : (setIllegal s).idle = s.idle := rfl
@[simp] theorem setIllegal_bitcnt (s : State) : (setIllegal s).bitcnt = s.bitcnt := rfl
@[simp] theorem setIllegal_bytecnt (s : State) : (setIllegal s).bytecnt = s.bytecnt := rfl
@[simp] theorem setIllegal_dir (s : State) : (setIllegal s).dir = s.dir := rfl
@[simp] theorem setIllegal_shreg (s : State) : (setIllegal s).shreg = s.shreg := rfl
@[simp] theorem setIllegal_ptr (s : State) : (setIllegal s).ptr = s.ptr := rfl
@[simp] theorem setIllegal_devaddr (s : State) : (setIllegal s).devaddr = s.devaddr := rfl
@[simp] theorem setIllegal_img (s : State) : (setIllegal s).img = s.img := rfl
@[simp] theorem setIllegal_feScl (s : State) : (setIllegal s).feScl = s.feScl := rfl
@[simp] theorem setIllegal_feSda (s : State) : (setIllegal s).feSda = s.feSda := rfl
@[simp] theorem setIllegal_fpos (s : State) : (setIllegal s).fpos = s.fpos := rfl
@[simp] theorem setIllegal_fbuf (s : State) : (setIllegal s).fbuf = s.fbuf := rfl
@[simp] theorem setIllegal_rxq (s : State) : (setIllegal s).rxq = s.rxq := rfl
@[simp] theorem setIllegal_win (s : State) : (setIllegal s).win = s.win := rfl
@[simp] theorem setIllegal_fRxovf (s : State) : (setIllegal s).fRxovf = s.fRxovf := rfl
@[simp] theorem setIllegal_fWinovf (s : State) : (setIllegal s).fWinovf = s.fWinovf := rfl
@[simp] theorem setIllegal_fIllegal (s : State) : (setIllegal s).fIllegal = true := rfl
@[simp] theorem setIllegal_fMisconfig (s : State) : (setIllegal s).fMisconfig = s.fMisconfig := rfl
@[simp] theorem setIllegal_port (s : State) : (setIllegal s).port = s.port := rfl
@[simp] theorem setIllegal_stepIndex (s : State) : (setIllegal s).stepIndex = s.stepIndex := rfl
@[simp] theorem setIllegal_out (s : State) : (setIllegal s).out = s.out := rfl

/-! ### setMisconfig -/

@[simp] theorem setMisconfig_cfg (s : State) : (setMisconfig s).cfg = s.cfg := rfl
@[simp] theorem setMisconfig_idle (s : State) : (setMisconfig s).idle = s.idle := rfl
@[simp] theorem setMisconfig_bitcnt (s : State) : (setMisconfig s).bitcnt = s.bitcnt := rfl
@[simp] theorem setMisconfig_bytecnt (s : State) : (setMisconfig s).bytecnt = s.bytecnt := rfl
@[simp] theorem setMisconfig_dir (s : State) : (setMisconfig s).dir = s.dir := rfl
@[simp] theorem setMisconfig_shreg (s : State) : (setMisconfig s).shreg = s.shreg := rfl
@[simp] theorem setMisconfig_ptr (s : State) : (setMisconfig s).ptr = s.ptr := rfl
@[simp] theorem setMisconfig_devaddr (s : State) : (setMisconfig s).devaddr = s.devaddr := rfl
@[simp] theorem setMisconfig_img (s : State) : (setMisconfig s).img = s.img := rfl
@[simp] theorem setMisconfig_feScl (s : State) : (setMisconfig s).feScl = s.feScl := rfl
@[simp] theorem setMisconfig_feSda (s : State) : (setMisconfig s).feSda = s.feSda := rfl
@[simp] theorem setMisconfig_fpos (s : State) : (setMisconfig s).fpos = s.fpos := rfl
@[simp] theorem setMisconfig_fbuf (s : State) : (setMisconfig s).fbuf = s.fbuf := rfl
@[simp] theorem setMisconfig_rxq (s : State) : (setMisconfig s).rxq = s.rxq := rfl
@[simp] theorem setMisconfig_win (s : State) : (setMisconfig s).win = s.win := rfl
@[simp] theorem setMisconfig_fRxovf (s : State) : (setMisconfig s).fRxovf = s.fRxovf := rfl
@[simp] theorem setMisconfig_fWinovf (s : State) : (setMisconfig s).fWinovf = s.fWinovf := rfl
@[simp] theorem setMisconfig_fIllegal (s : State) : (setMisconfig s).fIllegal = s.fIllegal := rfl
@[simp] theorem setMisconfig_fMisconfig (s : State) : (setMisconfig s).fMisconfig = true := rfl
@[simp] theorem setMisconfig_port (s : State) : (setMisconfig s).port = s.port := rfl
@[simp] theorem setMisconfig_stepIndex (s : State) : (setMisconfig s).stepIndex = s.stepIndex := rfl
@[simp] theorem setMisconfig_out (s : State) : (setMisconfig s).out = s.out := rfl

/-! ### imgWrite -/

@[simp] theorem imgWrite_cfg (i : Nat) (v : Byte) (s : State) : (imgWrite i v s).cfg = s.cfg := rfl
@[simp] theorem imgWrite_idle (i : Nat) (v : Byte) (s : State) :
    (imgWrite i v s).idle = s.idle := rfl
@[simp] theorem imgWrite_bitcnt (i : Nat) (v : Byte) (s : State) :
    (imgWrite i v s).bitcnt = s.bitcnt := rfl
@[simp] theorem imgWrite_bytecnt (i : Nat) (v : Byte) (s : State) :
    (imgWrite i v s).bytecnt = s.bytecnt := rfl
@[simp] theorem imgWrite_dir (i : Nat) (v : Byte) (s : State) : (imgWrite i v s).dir = s.dir := rfl
@[simp] theorem imgWrite_shreg (i : Nat) (v : Byte) (s : State) :
    (imgWrite i v s).shreg = s.shreg := rfl
@[simp] theorem imgWrite_ptr (i : Nat) (v : Byte) (s : State) : (imgWrite i v s).ptr = s.ptr := rfl
@[simp] theorem imgWrite_devaddr (i : Nat) (v : Byte) (s : State) :
    (imgWrite i v s).devaddr = s.devaddr := rfl
@[simp] theorem imgWrite_img (i : Nat) (v : Byte) (s : State) :
    (imgWrite i v s).img = s.img.write i v := rfl
@[simp] theorem imgWrite_feScl (i : Nat) (v : Byte) (s : State) :
    (imgWrite i v s).feScl = s.feScl := rfl
@[simp] theorem imgWrite_feSda (i : Nat) (v : Byte) (s : State) :
    (imgWrite i v s).feSda = s.feSda := rfl
@[simp] theorem imgWrite_fpos (i : Nat) (v : Byte) (s : State) :
    (imgWrite i v s).fpos = s.fpos := rfl
@[simp] theorem imgWrite_fbuf (i : Nat) (v : Byte) (s : State) :
    (imgWrite i v s).fbuf = s.fbuf := rfl
@[simp] theorem imgWrite_rxq (i : Nat) (v : Byte) (s : State) : (imgWrite i v s).rxq = s.rxq := rfl
@[simp] theorem imgWrite_win (i : Nat) (v : Byte) (s : State) : (imgWrite i v s).win = s.win := rfl
@[simp] theorem imgWrite_fRxovf (i : Nat) (v : Byte) (s : State) :
    (imgWrite i v s).fRxovf = s.fRxovf := rfl
@[simp] theorem imgWrite_fWinovf (i : Nat) (v : Byte) (s : State) :
    (imgWrite i v s).fWinovf = s.fWinovf := rfl
@[simp] theorem imgWrite_fIllegal (i : Nat) (v : Byte) (s : State) :
    (imgWrite i v s).fIllegal = s.fIllegal := rfl
@[simp] theorem imgWrite_fMisconfig (i : Nat) (v : Byte) (s : State) :
    (imgWrite i v s).fMisconfig = s.fMisconfig := rfl
@[simp] theorem imgWrite_port (i : Nat) (v : Byte) (s : State) :
    (imgWrite i v s).port = s.port := rfl
@[simp] theorem imgWrite_stepIndex (i : Nat) (v : Byte) (s : State) :
    (imgWrite i v s).stepIndex = s.stepIndex := rfl
@[simp] theorem imgWrite_out (i : Nat) (v : Byte) (s : State) : (imgWrite i v s).out = s.out := rfl

/-! ### fifoPush -/

@[simp] theorem fifoPush_cfg (b : Byte) (s : State) : (fifoPush b s).cfg = s.cfg := rfl
@[simp] theorem fifoPush_idle (b : Byte) (s : State) : (fifoPush b s).idle = s.idle := rfl
@[simp] theorem fifoPush_bitcnt (b : Byte) (s : State) : (fifoPush b s).bitcnt = s.bitcnt := rfl
@[simp] theorem fifoPush_bytecnt (b : Byte) (s : State) : (fifoPush b s).bytecnt = s.bytecnt := rfl
@[simp] theorem fifoPush_dir (b : Byte) (s : State) : (fifoPush b s).dir = s.dir := rfl
@[simp] theorem fifoPush_shreg (b : Byte) (s : State) : (fifoPush b s).shreg = s.shreg := rfl
@[simp] theorem fifoPush_ptr (b : Byte) (s : State) : (fifoPush b s).ptr = s.ptr := rfl
@[simp] theorem fifoPush_devaddr (b : Byte) (s : State) : (fifoPush b s).devaddr = s.devaddr := rfl
@[simp] theorem fifoPush_img (b : Byte) (s : State) : (fifoPush b s).img = s.img := rfl
@[simp] theorem fifoPush_feScl (b : Byte) (s : State) : (fifoPush b s).feScl = s.feScl := rfl
@[simp] theorem fifoPush_feSda (b : Byte) (s : State) : (fifoPush b s).feSda = s.feSda := rfl
@[simp] theorem fifoPush_fpos (b : Byte) (s : State) : (fifoPush b s).fpos = s.fpos := rfl
@[simp] theorem fifoPush_fbuf (b : Byte) (s : State) : (fifoPush b s).fbuf = s.fbuf := rfl
@[simp] theorem fifoPush_rxq (b : Byte) (s : State) : (fifoPush b s).rxq = s.rxq ++ [b] := rfl
@[simp] theorem fifoPush_win (b : Byte) (s : State) : (fifoPush b s).win = s.win := rfl
@[simp] theorem fifoPush_fRxovf (b : Byte) (s : State) : (fifoPush b s).fRxovf = s.fRxovf := rfl
@[simp] theorem fifoPush_fWinovf (b : Byte) (s : State) : (fifoPush b s).fWinovf = s.fWinovf := rfl
@[simp] theorem fifoPush_fIllegal (b : Byte) (s : State) :
    (fifoPush b s).fIllegal = s.fIllegal := rfl
@[simp] theorem fifoPush_fMisconfig (b : Byte) (s : State) :
    (fifoPush b s).fMisconfig = s.fMisconfig := rfl
@[simp] theorem fifoPush_port (b : Byte) (s : State) : (fifoPush b s).port = s.port := rfl
@[simp] theorem fifoPush_stepIndex (b : Byte) (s : State) :
    (fifoPush b s).stepIndex = s.stepIndex := rfl
@[simp] theorem fifoPush_out (b : Byte) (s : State) : (fifoPush b s).out = s.out := rfl

/-! ### winClear -/

@[simp] theorem winClear_cfg (q : Quantity) (s : State) : (winClear q s).cfg = s.cfg := rfl
@[simp] theorem winClear_idle (q : Quantity) (s : State) : (winClear q s).idle = s.idle := rfl
@[simp] theorem winClear_bitcnt (q : Quantity) (s : State) : (winClear q s).bitcnt = s.bitcnt := rfl
@[simp] theorem winClear_bytecnt (q : Quantity) (s : State) :
    (winClear q s).bytecnt = s.bytecnt := rfl
@[simp] theorem winClear_dir (q : Quantity) (s : State) : (winClear q s).dir = s.dir := rfl
@[simp] theorem winClear_shreg (q : Quantity) (s : State) : (winClear q s).shreg = s.shreg := rfl
@[simp] theorem winClear_ptr (q : Quantity) (s : State) : (winClear q s).ptr = s.ptr := rfl
@[simp] theorem winClear_devaddr (q : Quantity) (s : State) :
    (winClear q s).devaddr = s.devaddr := rfl
@[simp] theorem winClear_img (q : Quantity) (s : State) : (winClear q s).img = s.img := rfl
@[simp] theorem winClear_feScl (q : Quantity) (s : State) : (winClear q s).feScl = s.feScl := rfl
@[simp] theorem winClear_feSda (q : Quantity) (s : State) : (winClear q s).feSda = s.feSda := rfl
@[simp] theorem winClear_fpos (q : Quantity) (s : State) : (winClear q s).fpos = s.fpos := rfl
@[simp] theorem winClear_fbuf (q : Quantity) (s : State) : (winClear q s).fbuf = s.fbuf := rfl
@[simp] theorem winClear_rxq (q : Quantity) (s : State) : (winClear q s).rxq = s.rxq := rfl
@[simp] theorem winClear_win (q : Quantity) (s : State) : (winClear q s).win = s.win.set q [] := rfl
@[simp] theorem winClear_fRxovf (q : Quantity) (s : State) : (winClear q s).fRxovf = s.fRxovf := rfl
@[simp] theorem winClear_fWinovf (q : Quantity) (s : State) :
    (winClear q s).fWinovf = s.fWinovf := rfl
@[simp] theorem winClear_fIllegal (q : Quantity) (s : State) :
    (winClear q s).fIllegal = s.fIllegal := rfl
@[simp] theorem winClear_fMisconfig (q : Quantity) (s : State) :
    (winClear q s).fMisconfig = s.fMisconfig := rfl
@[simp] theorem winClear_port (q : Quantity) (s : State) : (winClear q s).port = s.port := rfl
@[simp] theorem winClear_stepIndex (q : Quantity) (s : State) :
    (winClear q s).stepIndex = s.stepIndex := rfl
@[simp] theorem winClear_out (q : Quantity) (s : State) : (winClear q s).out = s.out := rfl

/-! ### resetState -/

@[simp] theorem resetState_cfg (s : State) : (resetState s).cfg = s.cfg := rfl
@[simp] theorem resetState_idle (s : State) : (resetState s).idle = true := rfl
@[simp] theorem resetState_bitcnt (s : State) : (resetState s).bitcnt = 0#4 := rfl
@[simp] theorem resetState_bytecnt (s : State) : (resetState s).bytecnt = 0#8 := rfl
@[simp] theorem resetState_dir (s : State) : (resetState s).dir = false := rfl
@[simp] theorem resetState_shreg (s : State) : (resetState s).shreg = 0#8 := rfl
@[simp] theorem resetState_ptr (s : State) : (resetState s).ptr = 0#8 := rfl
@[simp] theorem resetState_devaddr (s : State) : (resetState s).devaddr = 0#8 := rfl
@[simp] theorem resetState_img (s : State) : (resetState s).img = [] := rfl
@[simp] theorem resetState_feScl (s : State) : (resetState s).feScl = true := rfl
@[simp] theorem resetState_feSda (s : State) : (resetState s).feSda = true := rfl
@[simp] theorem resetState_fpos (s : State) : (resetState s).fpos = 0#4 := rfl
@[simp] theorem resetState_fbuf (s : State) :
    (resetState s).fbuf = List.replicate s.cfg.frameLen 0#8 := rfl
@[simp] theorem resetState_rxq (s : State) : (resetState s).rxq = [] := rfl
@[simp] theorem resetState_win (s : State) : (resetState s).win = ⟨[], [], []⟩ := rfl
@[simp] theorem resetState_fRxovf (s : State) : (resetState s).fRxovf = false := rfl
@[simp] theorem resetState_fWinovf (s : State) : (resetState s).fWinovf = false := rfl
@[simp] theorem resetState_fIllegal (s : State) : (resetState s).fIllegal = false := rfl
@[simp] theorem resetState_fMisconfig (s : State) : (resetState s).fMisconfig = false := rfl
@[simp] theorem resetState_port (s : State) : (resetState s).port = s.port := rfl
@[simp] theorem resetState_stepIndex (s : State) : (resetState s).stepIndex = s.stepIndex := rfl
@[simp] theorem resetState_out (s : State) : (resetState s).out = s.out := rfl

/-! ### illegalOp -/

@[simp] theorem illegalOp_cfg (w : Word) (s : State) : (illegalOp w s).cfg = s.cfg := rfl
@[simp] theorem illegalOp_idle (w : Word) (s : State) : (illegalOp w s).idle = s.idle := rfl
@[simp] theorem illegalOp_bitcnt (w : Word) (s : State) : (illegalOp w s).bitcnt = s.bitcnt := rfl
@[simp] theorem illegalOp_bytecnt (w : Word) (s : State) :
    (illegalOp w s).bytecnt = s.bytecnt := rfl
@[simp] theorem illegalOp_dir (w : Word) (s : State) : (illegalOp w s).dir = s.dir := rfl
@[simp] theorem illegalOp_shreg (w : Word) (s : State) : (illegalOp w s).shreg = s.shreg := rfl
@[simp] theorem illegalOp_ptr (w : Word) (s : State) : (illegalOp w s).ptr = s.ptr := rfl
@[simp] theorem illegalOp_devaddr (w : Word) (s : State) :
    (illegalOp w s).devaddr = s.devaddr := rfl
@[simp] theorem illegalOp_img (w : Word) (s : State) : (illegalOp w s).img = s.img := rfl
@[simp] theorem illegalOp_feScl (w : Word) (s : State) : (illegalOp w s).feScl = s.feScl := rfl
@[simp] theorem illegalOp_feSda (w : Word) (s : State) : (illegalOp w s).feSda = s.feSda := rfl
@[simp] theorem illegalOp_fpos (w : Word) (s : State) : (illegalOp w s).fpos = s.fpos := rfl
@[simp] theorem illegalOp_fbuf (w : Word) (s : State) : (illegalOp w s).fbuf = s.fbuf := rfl
@[simp] theorem illegalOp_rxq (w : Word) (s : State) : (illegalOp w s).rxq = s.rxq := rfl
@[simp] theorem illegalOp_win (w : Word) (s : State) : (illegalOp w s).win = s.win := rfl
@[simp] theorem illegalOp_fRxovf (w : Word) (s : State) : (illegalOp w s).fRxovf = s.fRxovf := rfl
@[simp] theorem illegalOp_fWinovf (w : Word) (s : State) :
    (illegalOp w s).fWinovf = s.fWinovf := rfl
@[simp] theorem illegalOp_fIllegal (w : Word) (s : State) : (illegalOp w s).fIllegal = true := rfl
@[simp] theorem illegalOp_fMisconfig (w : Word) (s : State) :
    (illegalOp w s).fMisconfig = s.fMisconfig := rfl
@[simp] theorem illegalOp_port (w : Word) (s : State) : (illegalOp w s).port = s.port := rfl
@[simp] theorem illegalOp_stepIndex (w : Word) (s : State) :
    (illegalOp w s).stepIndex = s.stepIndex := rfl
@[simp] theorem illegalOp_out (w : Word) (s : State) :
    (illegalOp w s).out = s.out ++ [.report .illegalOp .warning [w.toNat]] := rfl

/-! ### present -/

@[simp] theorem present_cfg (a : Agent) (w : Word) (s : State) : (present a w s).cfg = s.cfg := rfl
@[simp] theorem present_idle (a : Agent) (w : Word) (s : State) :
    (present a w s).idle = s.idle := rfl
@[simp] theorem present_bitcnt (a : Agent) (w : Word) (s : State) :
    (present a w s).bitcnt = s.bitcnt := rfl
@[simp] theorem present_bytecnt (a : Agent) (w : Word) (s : State) :
    (present a w s).bytecnt = s.bytecnt := rfl
@[simp] theorem present_dir (a : Agent) (w : Word) (s : State) : (present a w s).dir = s.dir := rfl
@[simp] theorem present_shreg (a : Agent) (w : Word) (s : State) :
    (present a w s).shreg = s.shreg := rfl
@[simp] theorem present_ptr (a : Agent) (w : Word) (s : State) : (present a w s).ptr = s.ptr := rfl
@[simp] theorem present_devaddr (a : Agent) (w : Word) (s : State) :
    (present a w s).devaddr = s.devaddr := rfl
@[simp] theorem present_img (a : Agent) (w : Word) (s : State) : (present a w s).img = s.img := rfl
@[simp] theorem present_feScl (a : Agent) (w : Word) (s : State) :
    (present a w s).feScl = s.feScl := rfl
@[simp] theorem present_feSda (a : Agent) (w : Word) (s : State) :
    (present a w s).feSda = s.feSda := rfl
@[simp] theorem present_fpos (a : Agent) (w : Word) (s : State) :
    (present a w s).fpos = s.fpos := rfl
@[simp] theorem present_fbuf (a : Agent) (w : Word) (s : State) :
    (present a w s).fbuf = s.fbuf := rfl
@[simp] theorem present_rxq (a : Agent) (w : Word) (s : State) : (present a w s).rxq = s.rxq := rfl
@[simp] theorem present_win (a : Agent) (w : Word) (s : State) : (present a w s).win = s.win := rfl
@[simp] theorem present_fRxovf (a : Agent) (w : Word) (s : State) :
    (present a w s).fRxovf = s.fRxovf := rfl
@[simp] theorem present_fWinovf (a : Agent) (w : Word) (s : State) :
    (present a w s).fWinovf = s.fWinovf := rfl
@[simp] theorem present_fIllegal (a : Agent) (w : Word) (s : State) :
    (present a w s).fIllegal = s.fIllegal := rfl
@[simp] theorem present_fMisconfig (a : Agent) (w : Word) (s : State) :
    (present a w s).fMisconfig = s.fMisconfig := rfl
@[simp] theorem present_port (a : Agent) (w : Word) (s : State) :
    (present a w s).port = s.port ++ [⟨a, w⟩] := rfl
@[simp] theorem present_stepIndex (a : Agent) (w : Word) (s : State) :
    (present a w s).stepIndex = s.stepIndex := rfl
@[simp] theorem present_out (a : Agent) (w : Word) (s : State) : (present a w s).out = s.out := rfl

/-! ### dataBit -/

@[simp] theorem dataBit_cfg (d : Bool) (s : State) : (dataBit d s).cfg = s.cfg := rfl
@[simp] theorem dataBit_idle (d : Bool) (s : State) : (dataBit d s).idle = s.idle := rfl
@[simp] theorem dataBit_bitcnt (d : Bool) (s : State) : (dataBit d s).bitcnt = s.bitcnt + 1#4 := rfl
@[simp] theorem dataBit_bytecnt (d : Bool) (s : State) : (dataBit d s).bytecnt = s.bytecnt := rfl
@[simp] theorem dataBit_dir (d : Bool) (s : State) :
    (dataBit d s).dir = if s.bytecnt = 0#8 ∧ s.bitcnt = 7#4 then d else s.dir := rfl
@[simp] theorem dataBit_shreg (d : Bool) (s : State) :
    (dataBit d s).shreg = s.shreg.extractLsb' 0 7 ++ BitVec.ofBool d := rfl
@[simp] theorem dataBit_ptr (d : Bool) (s : State) : (dataBit d s).ptr = s.ptr := rfl
@[simp] theorem dataBit_devaddr (d : Bool) (s : State) : (dataBit d s).devaddr = s.devaddr := rfl
@[simp] theorem dataBit_img (d : Bool) (s : State) : (dataBit d s).img = s.img := rfl
@[simp] theorem dataBit_feScl (d : Bool) (s : State) : (dataBit d s).feScl = s.feScl := rfl
@[simp] theorem dataBit_feSda (d : Bool) (s : State) : (dataBit d s).feSda = s.feSda := rfl
@[simp] theorem dataBit_fpos (d : Bool) (s : State) : (dataBit d s).fpos = s.fpos := rfl
@[simp] theorem dataBit_fbuf (d : Bool) (s : State) : (dataBit d s).fbuf = s.fbuf := rfl
@[simp] theorem dataBit_rxq (d : Bool) (s : State) : (dataBit d s).rxq = s.rxq := rfl
@[simp] theorem dataBit_win (d : Bool) (s : State) : (dataBit d s).win = s.win := rfl
@[simp] theorem dataBit_fRxovf (d : Bool) (s : State) : (dataBit d s).fRxovf = s.fRxovf := rfl
@[simp] theorem dataBit_fWinovf (d : Bool) (s : State) : (dataBit d s).fWinovf = s.fWinovf := rfl
@[simp] theorem dataBit_fIllegal (d : Bool) (s : State) : (dataBit d s).fIllegal = s.fIllegal := rfl
@[simp] theorem dataBit_fMisconfig (d : Bool) (s : State) :
    (dataBit d s).fMisconfig = s.fMisconfig := rfl
@[simp] theorem dataBit_port (d : Bool) (s : State) : (dataBit d s).port = s.port := rfl
@[simp] theorem dataBit_stepIndex (d : Bool) (s : State) :
    (dataBit d s).stepIndex = s.stepIndex := rfl
@[simp] theorem dataBit_out (d : Bool) (s : State) : (dataBit d s).out = s.out := rfl

/-! ### advancePointer -/

@[simp] theorem advancePointer_cfg (s : State) : (advancePointer s).cfg = s.cfg := rfl
@[simp] theorem advancePointer_idle (s : State) : (advancePointer s).idle = s.idle := rfl
@[simp] theorem advancePointer_bitcnt (s : State) : (advancePointer s).bitcnt = s.bitcnt := rfl
@[simp] theorem advancePointer_bytecnt (s : State) : (advancePointer s).bytecnt = s.bytecnt := rfl
@[simp] theorem advancePointer_dir (s : State) : (advancePointer s).dir = s.dir := rfl
@[simp] theorem advancePointer_shreg (s : State) : (advancePointer s).shreg = s.shreg := rfl
@[simp] theorem advancePointer_ptr (s : State) :
    (advancePointer s).ptr = BitVec.ofNat 8 (wrapN s.cfg (s.ptr.toNat + 1)) := rfl
@[simp] theorem advancePointer_devaddr (s : State) : (advancePointer s).devaddr = s.devaddr := rfl
@[simp] theorem advancePointer_img (s : State) : (advancePointer s).img = s.img := rfl
@[simp] theorem advancePointer_feScl (s : State) : (advancePointer s).feScl = s.feScl := rfl
@[simp] theorem advancePointer_feSda (s : State) : (advancePointer s).feSda = s.feSda := rfl
@[simp] theorem advancePointer_fpos (s : State) : (advancePointer s).fpos = s.fpos := rfl
@[simp] theorem advancePointer_fbuf (s : State) : (advancePointer s).fbuf = s.fbuf := rfl
@[simp] theorem advancePointer_rxq (s : State) : (advancePointer s).rxq = s.rxq := rfl
@[simp] theorem advancePointer_win (s : State) : (advancePointer s).win = s.win := rfl
@[simp] theorem advancePointer_fRxovf (s : State) : (advancePointer s).fRxovf = s.fRxovf := rfl
@[simp] theorem advancePointer_fWinovf (s : State) : (advancePointer s).fWinovf = s.fWinovf := rfl
@[simp] theorem advancePointer_fIllegal (s : State) :
    (advancePointer s).fIllegal = s.fIllegal := rfl
@[simp] theorem advancePointer_fMisconfig (s : State) :
    (advancePointer s).fMisconfig = s.fMisconfig := rfl
@[simp] theorem advancePointer_port (s : State) : (advancePointer s).port = s.port := rfl
@[simp] theorem advancePointer_stepIndex (s : State) :
    (advancePointer s).stepIndex = s.stepIndex := rfl
@[simp] theorem advancePointer_out (s : State) : (advancePointer s).out = s.out := rfl

/-! ### ackEnd -/

@[simp] theorem ackEnd_cfg (s : State) : (ackEnd s).cfg = s.cfg := rfl
@[simp] theorem ackEnd_idle (s : State) : (ackEnd s).idle = s.idle := rfl
@[simp] theorem ackEnd_bitcnt (s : State) : (ackEnd s).bitcnt = 0#4 := rfl
@[simp] theorem ackEnd_bytecnt (s : State) : (ackEnd s).bytecnt = satInc8 s.bytecnt := rfl
@[simp] theorem ackEnd_dir (s : State) : (ackEnd s).dir = s.dir := rfl
@[simp] theorem ackEnd_shreg (s : State) : (ackEnd s).shreg = 0#8 := rfl
@[simp] theorem ackEnd_ptr (s : State) : (ackEnd s).ptr = s.ptr := rfl
@[simp] theorem ackEnd_devaddr (s : State) : (ackEnd s).devaddr = s.devaddr := rfl
@[simp] theorem ackEnd_img (s : State) : (ackEnd s).img = s.img := rfl
@[simp] theorem ackEnd_feScl (s : State) : (ackEnd s).feScl = s.feScl := rfl
@[simp] theorem ackEnd_feSda (s : State) : (ackEnd s).feSda = s.feSda := rfl
@[simp] theorem ackEnd_fpos (s : State) : (ackEnd s).fpos = s.fpos := rfl
@[simp] theorem ackEnd_fbuf (s : State) : (ackEnd s).fbuf = s.fbuf := rfl
@[simp] theorem ackEnd_rxq (s : State) : (ackEnd s).rxq = s.rxq := rfl
@[simp] theorem ackEnd_win (s : State) : (ackEnd s).win = s.win := rfl
@[simp] theorem ackEnd_fRxovf (s : State) : (ackEnd s).fRxovf = s.fRxovf := rfl
@[simp] theorem ackEnd_fWinovf (s : State) : (ackEnd s).fWinovf = s.fWinovf := rfl
@[simp] theorem ackEnd_fIllegal (s : State) : (ackEnd s).fIllegal = s.fIllegal := rfl
@[simp] theorem ackEnd_fMisconfig (s : State) : (ackEnd s).fMisconfig = s.fMisconfig := rfl
@[simp] theorem ackEnd_port (s : State) : (ackEnd s).port = s.port := rfl
@[simp] theorem ackEnd_stepIndex (s : State) : (ackEnd s).stepIndex = s.stepIndex := rfl
@[simp] theorem ackEnd_out (s : State) : (ackEnd s).out = s.out := rfl

/-! ### startCondition -/

@[simp] theorem startCondition_cfg (s : State) : (startCondition s).cfg = s.cfg := rfl
@[simp] theorem startCondition_idle (s : State) : (startCondition s).idle = false := rfl
@[simp] theorem startCondition_bitcnt (s : State) : (startCondition s).bitcnt = 0#4 := rfl
@[simp] theorem startCondition_bytecnt (s : State) : (startCondition s).bytecnt = 0#8 := rfl
@[simp] theorem startCondition_dir (s : State) : (startCondition s).dir = s.dir := rfl
@[simp] theorem startCondition_shreg (s : State) : (startCondition s).shreg = 0#8 := rfl
@[simp] theorem startCondition_ptr (s : State) : (startCondition s).ptr = s.ptr := rfl
@[simp] theorem startCondition_devaddr (s : State) : (startCondition s).devaddr = s.devaddr := rfl
@[simp] theorem startCondition_img (s : State) : (startCondition s).img = s.img := rfl
@[simp] theorem startCondition_feScl (s : State) : (startCondition s).feScl = s.feScl := rfl
@[simp] theorem startCondition_feSda (s : State) : (startCondition s).feSda = s.feSda := rfl
@[simp] theorem startCondition_fpos (s : State) : (startCondition s).fpos = s.fpos := rfl
@[simp] theorem startCondition_fbuf (s : State) : (startCondition s).fbuf = s.fbuf := rfl
@[simp] theorem startCondition_rxq (s : State) : (startCondition s).rxq = s.rxq := rfl
@[simp] theorem startCondition_win (s : State) : (startCondition s).win = s.win := rfl
@[simp] theorem startCondition_fRxovf (s : State) : (startCondition s).fRxovf = s.fRxovf := rfl
@[simp] theorem startCondition_fWinovf (s : State) : (startCondition s).fWinovf = s.fWinovf := rfl
@[simp] theorem startCondition_fIllegal (s : State) :
    (startCondition s).fIllegal = s.fIllegal := rfl
@[simp] theorem startCondition_fMisconfig (s : State) :
    (startCondition s).fMisconfig = s.fMisconfig := rfl
@[simp] theorem startCondition_port (s : State) : (startCondition s).port = s.port := rfl
@[simp] theorem startCondition_stepIndex (s : State) :
    (startCondition s).stepIndex = s.stepIndex := rfl
@[simp] theorem startCondition_out (s : State) : (startCondition s).out = s.out := rfl

/-! ### stopCondition -/

@[simp] theorem stopCondition_cfg (s : State) : (stopCondition s).cfg = s.cfg := rfl
@[simp] theorem stopCondition_idle (s : State) : (stopCondition s).idle = true := rfl
@[simp] theorem stopCondition_bitcnt (s : State) : (stopCondition s).bitcnt = s.bitcnt := rfl
@[simp] theorem stopCondition_bytecnt (s : State) : (stopCondition s).bytecnt = s.bytecnt := rfl
@[simp] theorem stopCondition_dir (s : State) : (stopCondition s).dir = s.dir := rfl
@[simp] theorem stopCondition_shreg (s : State) : (stopCondition s).shreg = s.shreg := rfl
@[simp] theorem stopCondition_ptr (s : State) : (stopCondition s).ptr = s.ptr := rfl
@[simp] theorem stopCondition_devaddr (s : State) : (stopCondition s).devaddr = s.devaddr := rfl
@[simp] theorem stopCondition_img (s : State) : (stopCondition s).img = s.img := rfl
@[simp] theorem stopCondition_feScl (s : State) : (stopCondition s).feScl = s.feScl := rfl
@[simp] theorem stopCondition_feSda (s : State) : (stopCondition s).feSda = s.feSda := rfl
@[simp] theorem stopCondition_fpos (s : State) : (stopCondition s).fpos = s.fpos := rfl
@[simp] theorem stopCondition_fbuf (s : State) : (stopCondition s).fbuf = s.fbuf := rfl
@[simp] theorem stopCondition_rxq (s : State) : (stopCondition s).rxq = s.rxq := rfl
@[simp] theorem stopCondition_win (s : State) : (stopCondition s).win = s.win := rfl
@[simp] theorem stopCondition_fRxovf (s : State) : (stopCondition s).fRxovf = s.fRxovf := rfl
@[simp] theorem stopCondition_fWinovf (s : State) : (stopCondition s).fWinovf = s.fWinovf := rfl
@[simp] theorem stopCondition_fIllegal (s : State) : (stopCondition s).fIllegal = s.fIllegal := rfl
@[simp] theorem stopCondition_fMisconfig (s : State) :
    (stopCondition s).fMisconfig = s.fMisconfig := rfl
@[simp] theorem stopCondition_port (s : State) : (stopCondition s).port = s.port := rfl
@[simp] theorem stopCondition_stepIndex (s : State) :
    (stopCondition s).stepIndex = s.stepIndex := rfl
@[simp] theorem stopCondition_out (s : State) : (stopCondition s).out = s.out := rfl

/-! ### fbufWrite -/

@[simp] theorem fbufWrite_cfg (i : Nat) (b : Byte) (s : State) :
    (fbufWrite i b s).cfg = s.cfg := rfl
@[simp] theorem fbufWrite_idle (i : Nat) (b : Byte) (s : State) :
    (fbufWrite i b s).idle = s.idle := rfl
@[simp] theorem fbufWrite_bitcnt (i : Nat) (b : Byte) (s : State) :
    (fbufWrite i b s).bitcnt = s.bitcnt := rfl
@[simp] theorem fbufWrite_bytecnt (i : Nat) (b : Byte) (s : State) :
    (fbufWrite i b s).bytecnt = s.bytecnt := rfl
@[simp] theorem fbufWrite_dir (i : Nat) (b : Byte) (s : State) :
    (fbufWrite i b s).dir = s.dir := rfl
@[simp] theorem fbufWrite_shreg (i : Nat) (b : Byte) (s : State) :
    (fbufWrite i b s).shreg = s.shreg := rfl
@[simp] theorem fbufWrite_ptr (i : Nat) (b : Byte) (s : State) :
    (fbufWrite i b s).ptr = s.ptr := rfl
@[simp] theorem fbufWrite_devaddr (i : Nat) (b : Byte) (s : State) :
    (fbufWrite i b s).devaddr = s.devaddr := rfl
@[simp] theorem fbufWrite_img (i : Nat) (b : Byte) (s : State) :
    (fbufWrite i b s).img = s.img := rfl
@[simp] theorem fbufWrite_feScl (i : Nat) (b : Byte) (s : State) :
    (fbufWrite i b s).feScl = s.feScl := rfl
@[simp] theorem fbufWrite_feSda (i : Nat) (b : Byte) (s : State) :
    (fbufWrite i b s).feSda = s.feSda := rfl
@[simp] theorem fbufWrite_fpos (i : Nat) (b : Byte) (s : State) :
    (fbufWrite i b s).fpos = s.fpos := rfl
@[simp] theorem fbufWrite_fbuf (i : Nat) (b : Byte) (s : State) :
    (fbufWrite i b s).fbuf = s.fbuf.set i b := rfl
@[simp] theorem fbufWrite_rxq (i : Nat) (b : Byte) (s : State) :
    (fbufWrite i b s).rxq = s.rxq := rfl
@[simp] theorem fbufWrite_win (i : Nat) (b : Byte) (s : State) :
    (fbufWrite i b s).win = s.win := rfl
@[simp] theorem fbufWrite_fRxovf (i : Nat) (b : Byte) (s : State) :
    (fbufWrite i b s).fRxovf = s.fRxovf := rfl
@[simp] theorem fbufWrite_fWinovf (i : Nat) (b : Byte) (s : State) :
    (fbufWrite i b s).fWinovf = s.fWinovf := rfl
@[simp] theorem fbufWrite_fIllegal (i : Nat) (b : Byte) (s : State) :
    (fbufWrite i b s).fIllegal = s.fIllegal := rfl
@[simp] theorem fbufWrite_fMisconfig (i : Nat) (b : Byte) (s : State) :
    (fbufWrite i b s).fMisconfig = s.fMisconfig := rfl
@[simp] theorem fbufWrite_port (i : Nat) (b : Byte) (s : State) :
    (fbufWrite i b s).port = s.port := rfl
@[simp] theorem fbufWrite_stepIndex (i : Nat) (b : Byte) (s : State) :
    (fbufWrite i b s).stepIndex = s.stepIndex := rfl
@[simp] theorem fbufWrite_out (i : Nat) (b : Byte) (s : State) :
    (fbufWrite i b s).out = s.out := rfl

end Sys2Proof.Machine
end

