-- ==== Sys2Proof/Laws/Ops.lean ====
section
/-! SUPPORT. For each shared operation, once, everything it can do: its cases, or the fields it can change
(`…_only`), or that it commutes with what it does not look at. -/

namespace Sys2Proof.Machine

open Sys2Proof

/-! ### One value per quantity -/

@[simp] theorem PerQuantity.get_set_same {α : Type} (p : PerQuantity α) (q : Quantity) (v : α) :
    (p.set q v).get q = v := by cases q <;> rfl

@[simp] theorem PerQuantity.get_set_of_ne {α : Type} (p : PerQuantity α) (q r : Quantity) (v : α)
    (h : r ≠ q) : (p.set q v).get r = p.get r := by
  cases q <;> cases r <;> first | rfl | exact absurd rfl h

theorem PerQuantity.get_set {α : Type} (p : PerQuantity α) (q r : Quantity) (v : α) :
    (p.set q v).get r = if r = q then v else p.get r := by
  cases q <;> cases r <;> rfl

theorem PerQuantity.ext_get {α : Type} (p p' : PerQuantity α) (h : ∀ q, p.get q = p'.get q) :
    p = p' := by
  have h0 : p.temperature = p'.temperature := h .temperature
  have h1 : p.humidity = p'.humidity := h .humidity
  have h2 : p.gas = p'.gas := h .gas
  cases p; cases p'; simp_all

@[simp] theorem Quantity.mem_all (q : Quantity) : q ∈ Quantity.all := by cases q <;> decide

/-! ### Arithmetic -/

theorem wrapN_lt (c : Config) (v : Nat) (h : 0 < c.regN) : wrapN c v < c.regN := Nat.mod_lt v h

/-- `sat_inc_8` adds 1 and stops at 255. -/
theorem satInc8_toNat (v : BitVec 8) : (satInc8 v).toNat = min 255 (v.toNat + 1) := by
  have := v.isLt
  unfold satInc8
  split
  · rw [BitVec.toNat_add]
    simp only [BitVec.toNat_ofNat]
    omega
  · simp only [BitVec.toNat_ofNat]
    omega

/-- A configuration in range: what `Config.wf` says, clause by clause. -/
theorem Config.wf_iff (c : Config) :
    c.wf = true ↔
      1 ≤ c.regN ∧ c.regN ≤ 256 ∧ 1 ≤ c.hdrLen ∧ c.hdrLen + 1 ≤ c.frameLen ∧ c.frameLen ≤ 16 ∧
      1 ≤ c.rxCap ∧ c.rxCap ≤ 65535 ∧ 1 ≤ c.backlogKeep ∧ c.backlogKeep ≤ c.rxCap ∧
      1 ≤ c.wCap ∧ c.wCap ≤ 65535 ∧ (∀ q, (c.src.get q).wf c = true) ∧
      ∀ q, c.min.get q ≤ c.max.get q := by
  have hq : ∀ p : Quantity → Bool, Quantity.all.all p = true ↔ ∀ q, p q = true := fun p =>
    ⟨fun h q => List.all_eq_true.1 h q (Quantity.mem_all q), fun h =>
      List.all_eq_true.2 fun q _ => h q⟩
  simp only [Config.wf, Bool.and_eq_true, decide_eq_true_eq, hq, and_assoc]

/-! ### The port -/

/-- `fetch` answers the head of the port and the state that has consumed it, or nothing. -/
theorem fetch_cases (s : State) :
    (s.port = [] ∧ fetch s = none) ∨
      ∃ p rest, s.port = p :: rest ∧
        fetch s = some (p.word, { s with port := rest, stepIndex := s.stepIndex + 1 }) := by
  unfold fetch
  cases s.port with
  | nil => exact .inl ⟨rfl, rfl⟩
  | cons p rest => exact .inr ⟨p, rest, rfl, rfl⟩

/-! ### The FIFO and the windows -/

/-- `FifoPop` answers the oldest byte and the state without it, or nothing. -/
theorem fifoPop_cases (s : State) :
    (s.rxq = [] ∧ fifoPop s = none) ∨
      ∃ b rest, s.rxq = b :: rest ∧ fifoPop s = some (b, { s with rxq := rest }) := by
  unfold fifoPop
  cases s.rxq with
  | nil => exact .inl ⟨rfl, rfl⟩
  | cons b rest => exact .inr ⟨b, rest, rfl, rfl⟩

/-- `WinAppend`: the sample joins its window, or the window is full and it is dropped. -/
theorem winAppend_cases (q : Quantity) (v : RawSample) (s : State) :
    ((s.win.get q).length < s.cfg.wCap ∧
        winAppend q v s = { s with win := s.win.set q (s.win.get q ++ [v]) }) ∨
      (s.cfg.wCap ≤ (s.win.get q).length ∧
        winAppend q v s =
          { s with
            fWinovf := true
            out := s.out ++ [.report .windowOverflow .warning [q.index]] }) := by
  unfold winAppend
  split
  · exact .inl ⟨by assumption, rfl⟩
  · exact .inr ⟨by omega, rfl⟩

/-- `WinAppend` changes windows, `f_winovf` and the output stream only. -/
theorem winAppend_only (q : Quantity) (v : RawSample) (s : State) :
    ∃ w f o, winAppend q v s = { s with win := w, fWinovf := f, out := o } := by
  rcases winAppend_cases q v s with ⟨-, h⟩ | ⟨-, h⟩ <;> exact ⟨_, _, _, h⟩

/-- `WinAppend` to q leaves the other windows. -/
theorem winAppend_get_of_ne (q r : Quantity) (v : RawSample) (s : State) (h : r ≠ q) :
    (winAppend q v s).win.get r = s.win.get r := by
  rcases winAppend_cases q v s with ⟨-, e⟩ | ⟨-, e⟩ <;> rw [e]
  exact PerQuantity.get_set_of_ne s.win q r _ h

/-! ### The decoder -/

/-- An acknowledgment slot changes `idle`, `devaddr`, `ptr`, the image and the output stream, ends the
byte, and changes nothing else. -/
theorem ackSlot_only (d : Bool) (s : State) :
    ∃ i a p m o, ackSlot d s =
      { s with
        idle := i, devaddr := a, ptr := p, img := m, out := o
        bytecnt := satInc8 s.bytecnt, bitcnt := 0#4, shreg := 0#8 } := by
  unfold ackSlot ackAddress ackPointer ackData
  split
  · cases d <;> exact ⟨_, _, _, _, _, rfl⟩
  · split <;> cases d <;> exact ⟨_, _, _, _, _, rfl⟩

/-- `ClkRise`: nothing while idle, a data bit at bit index 0 to 7, the acknowledgment slot otherwise. -/
theorem clkRise_cases (c d : Bool) (s : State) :
    (s.idle = true ∧ clkRise c d s = s) ∨
      (s.idle = false ∧ s.bitcnt.toNat < 8 ∧ clkRise c d s = dataBit d s) ∨
      (s.idle = false ∧ 8 ≤ s.bitcnt.toNat ∧ clkRise c d s = ackSlot d s) := by
  unfold clkRise
  cases h : s.idle
  · by_cases hb : s.bitcnt.toNat < 8
    · exact .inr (.inl ⟨rfl, hb, by simp [hb]⟩)
    · exact .inr (.inr ⟨rfl, by omega, by simp [hb]⟩)
  · exact .inl ⟨rfl, rfl⟩

/-- `ClkRise` changes decoder fields, the image and the output stream only. -/
theorem clkRise_only (c d : Bool) (s : State) :
    ∃ i bc yc r h p a m o, clkRise c d s =
      { s with
        idle := i, bitcnt := bc, bytecnt := yc, dir := r, shreg := h, ptr := p, devaddr := a
        img := m, out := o } := by
  rcases clkRise_cases c d s with ⟨-, h⟩ | ⟨-, -, h⟩ | ⟨-, -, h⟩
  · exact ⟨_, _, _, _, _, _, _, _, _, h⟩
  · exact ⟨_, _, _, _, _, _, _, _, _, h⟩
  · obtain ⟨i, a, p, m, o, e⟩ := ackSlot_only d s
    exact ⟨_, _, _, _, _, _, _, _, _, h.trans e⟩

/-- `DataChg`: START, STOP, or nothing with SCL low. -/
theorem dataChg_cases (c d : Bool) (s : State) :
    (c = true ∧ d = false ∧ dataChg c d s = startCondition s) ∨
      (c = true ∧ d = true ∧ dataChg c d s = stopCondition s) ∨ (c = false ∧ dataChg c d s = s) := by
  cases c <;> cases d <;> simp [dataChg]

/-! ### The synchronizer -/

/-- A frame sample changes windows, `f_winovf` and the output stream only. -/
theorem appendFrameSample_only (q : Quantity) (s : State) :
    ∃ w f o, appendFrameSample q s = { s with win := w, fWinovf := f, out := o } := by
  unfold appendFrameSample
  cases s.cfg.src.get q with
  | twi i => exact ⟨_, _, _, rfl⟩
  | none => exact ⟨_, _, _, rfl⟩
  | ser o => exact winAppend_only q _ s

/-- An operation that changes windows, `f_winovf` and the output stream only still does so when folded
over a list of quantities. -/
theorem foldl_winOnly (g : Quantity → State → State)
    (h : ∀ q s, ∃ w f o, g q s = { s with win := w, fWinovf := f, out := o })
    (qs : List Quantity) (s : State) :
    ∃ w f o, qs.foldl (fun t q => g q t) s = { s with win := w, fWinovf := f, out := o } := by
  induction qs generalizing s with
  | nil => exact ⟨_, _, _, rfl⟩
  | cons q qs ih =>
    obtain ⟨w, f, o, e⟩ := h q s
    obtain ⟨w', f', o', e'⟩ := ih (g q s)
    refine ⟨w', f', o', ?_⟩
    rw [List.foldl_cons, e', e]

/-- `FrameDone` resets `fpos` and changes windows, `f_winovf` and the output stream only. -/
theorem frameDone_only (s : State) :
    ∃ w f o, frameDone s = { s with fpos := 0#4, win := w, fWinovf := f, out := o } := by
  unfold frameDone
  dsimp only
  split
  · obtain ⟨w, f, o, e⟩ := foldl_winOnly appendFrameSample appendFrameSample_only Quantity.all s
    rw [e]
    exact ⟨_, _, _, rfl⟩
  · exact ⟨_, _, _, rfl⟩

/-- `SyncByte` changes `fpos`, `fbuf`, windows, `f_winovf` and the output stream only. -/
theorem syncByte_only (b : Byte) (s : State) :
    ∃ p buf w f o, syncByte b s =
      { s with fpos := p, fbuf := buf, win := w, fWinovf := f, out := o } := by
  unfold syncByte headerMismatch
  dsimp only
  split
  · split
    · exact ⟨_, _, _, _, _, rfl⟩
    · split <;> split <;> exact ⟨_, _, _, _, _, rfl⟩
  · split
    · exact ⟨_, _, _, _, _, rfl⟩
    · obtain ⟨w, f, o, e⟩ := frameDone_only (fbufWrite s.fpos.toNat b s)
      rw [e]
      exact ⟨_, _, _, _, _, rfl⟩

/-- `SyncByte` on a byte does not look at the FIFO. -/
theorem syncByte_rxq (b : Byte) (q : List Byte) (s : State) :
    syncByte b { s with rxq := q } = { syncByte b s with rxq := q } := by
  have hfield : ∀ (r : Quantity) (t : State),
      appendFrameSample r { t with rxq := q } = { appendFrameSample r t with rxq := q } := by
    intro r t
    unfold appendFrameSample winAppend
    dsimp only
    cases t.cfg.src.get r with
    | twi i => rfl
    | none => rfl
    | ser o => dsimp only; split <;> rfl
  have hdone : ∀ t : State, frameDone { t with rxq := q } = { frameDone t with rxq := q } := by
    intro t
    unfold frameDone fbufRead
    dsimp only
    split
    · simp only [Quantity.all, List.foldl_cons, List.foldl_nil, hfield]
    · rfl
  unfold syncByte headerMismatch
  dsimp only
  split
  · split
    · rfl
    · split <;> split <;> rfl
  · split
    · rfl
    · exact hdone (fbufWrite s.fpos.toNat b s)

/-- The bytes waiting for `syncBytes` are processed oldest first: the pass is a fold of `SyncByte` over
them that empties the FIFO. -/
theorem syncBytes_eq_foldl (bytes : List Byte) (s : State) :
    syncBytes bytes.length { s with rxq := bytes } =
      bytes.foldl (fun t b => syncByte b t) { s with rxq := [] } := by
  induction bytes generalizing s with
  | nil => rfl
  | cons b rest ih =>
    show syncBytes rest.length (syncByte b { s with rxq := rest }) = _
    rw [List.foldl_cons, syncByte_rxq b rest s, syncByte_rxq b [] s, ih (syncByte b s)]

/-- Discarding n bytes drops the oldest n. -/
theorem discardBytes_eq_drop (n : Nat) (s : State) :
    discardBytes n s = { s with rxq := s.rxq.drop n } := by
  induction n generalizing s with
  | zero => rfl
  | succ n ih =>
    rcases fifoPop_cases s with ⟨h, e⟩ | ⟨b, rest, h, e⟩
    · simp only [discardBytes, e, h, List.drop_nil]
      rw [← h]
    · simp only [discardBytes, e, ih, h, List.drop_succ_cons]

/-! ### The aggregator -/

/-- An image sample changes windows, `f_winovf` and the output stream only. -/
theorem appendImageSample_only (q : Quantity) (s : State) :
    ∃ w f o, appendImageSample q s = { s with win := w, fWinovf := f, out := o } := by
  unfold appendImageSample
  cases s.cfg.src.get q with
  | twi i => exact winAppend_only q _ s
  | none => exact ⟨_, _, _, rfl⟩
  | ser o => exact ⟨_, _, _, rfl⟩

/-- `DrainOne` changes windows and the output stream only. -/
theorem drainOne_only (q : Quantity) (s : State) :
    ∃ w o, drainOne q s = { s with win := w, out := o } := by
  unfold drainOne publishChecked
  split
  · exact ⟨_, _, rfl⟩
  · dsimp only
    split <;> exact ⟨_, _, rfl⟩

/-- A drained window is empty, whatever was emitted. -/
theorem drainOne_get_same (q : Quantity) (s : State) : (drainOne q s).win.get q = [] := by
  unfold drainOne
  split
  · rename_i h
    exact List.length_eq_zero_iff.1 h
  · exact PerQuantity.get_set_same _ q []

/-- Sorting keeps the samples. -/
theorem sortAscending_perm (L : List RawSample) : (sortAscending L).Perm L := by
  have hins : ∀ (v : RawSample) (l : List RawSample), (insertAscending v l).Perm (v :: l) := by
    intro v l
    induction l with
    | nil => exact List.Perm.refl _
    | cons u l ih =>
      unfold insertAscending
      split
      · exact List.Perm.refl _
      · exact (ih.cons u).trans (List.Perm.swap v u l)
  induction L with
  | nil => exact List.Perm.refl _
  | cons v L ih => exact (hins v _).trans (ih.cons v)

/-- Sorting puts the samples in ascending unsigned order. -/
theorem sortAscending_sorted (L : List RawSample) :
    (sortAscending L).Pairwise (fun u v => u.toNat ≤ v.toNat) := by
  have hmem : ∀ (v : RawSample) (l : List RawSample) (x : RawSample), x ∈ insertAscending v l →
      x = v ∨ x ∈ l := by
    intro v l
    induction l with
    | nil => simp [insertAscending]
    | cons u l ih =>
      intro x hx
      unfold insertAscending at hx
      split at hx
      · simpa using hx
      · rcases List.mem_cons.1 hx with rfl | hx
        · simp
        · rcases ih x hx with h | h <;> simp [h]
  have hins : ∀ (v : RawSample) (l : List RawSample),
      l.Pairwise (fun u v => u.toNat ≤ v.toNat) →
      (insertAscending v l).Pairwise (fun u v => u.toNat ≤ v.toNat) := by
    intro v l
    induction l with
    | nil => simp [insertAscending]
    | cons u l ih =>
      intro h
      obtain ⟨hu, hl⟩ := List.pairwise_cons.1 h
      unfold insertAscending
      split
      · rename_i hle
        refine List.pairwise_cons.2 ⟨fun x hx => ?_, h⟩
        rcases List.mem_cons.1 hx with rfl | hx
        · exact hle
        · exact hle.trans (hu x hx)
      · refine List.pairwise_cons.2 ⟨fun x hx => ?_, ih hl⟩
        rcases hmem v l x hx with rfl | hx
        · omega
        · exact hu x hx
  induction L with
  | nil => exact List.Pairwise.nil
  | cons v L ih => exact hins v _ ih

end Sys2Proof.Machine
end

