-- ==== Sys2Proof/Laws/Exec.lean ====
section
/-! SUPPORT. The meaning of each operation as a function of the state: `exec` unfolded once, and what
lists of operations do. -/

namespace Sys2Proof.Machine

open Sys2Proof

@[simp] theorem exec_evClkRise (c d : Bool) (s : State) :
    exec (.evClkRise c d) s = .next (clkRise c d s) := rfl

@[simp] theorem exec_evDataChg (c d : Bool) (s : State) :
    exec (.evDataChg c d) s = .next (dataChg c d s) := rfl

@[simp] theorem exec_lineSample (c d : Bool) (s : State) :
    exec (.lineSample c d) s = .next (lineSampled c d s) := rfl

@[simp] theorem exec_rxPush (b : Byte) (s : State) :
    exec (.rxPush b) s = .next (receiveByte b s) := rfl

@[simp] theorem exec_serPoll (s : State) : exec .serPoll s = .next (serialPass s) := rfl

@[simp] theorem exec_sampleTick (s : State) : exec .sampleTick s = .next (sampleImage s) := rfl

@[simp] theorem exec_drain (q : BitVec 2) (s : State) :
    exec (.drain q) s = .next ((drainTargets q).foldl (fun t r => drainOne r t) s) := rfl

/-- READ_STATUS emits its register, or is the illegal word its selector makes it. -/
theorem exec_readStatus_cases (sel : BitVec 4) (s : State) :
    (∃ v, statusReg sel s = some v ∧ exec (.readStatus sel) s = .next (emitResult v s)) ∨
      (statusReg sel s = none ∧
        exec (.readStatus sel) s = .next (illegalOp (encode (.readStatus sel)) s)) := by
  show (∃ v, _ ∧ execReadStatus sel s = _) ∨ (_ ∧ execReadStatus sel s = _)
  unfold execReadStatus
  cases h : statusReg sel s with
  | none => exact .inr ⟨rfl, rfl⟩
  | some v => exact .inl ⟨v, rfl, rfl⟩

/-- A list of operations after a first one that answers a next state. -/
theorem execAll_cons (i : Instr) (rest : List Instr) (s t : State) (h : exec i s = .next t) :
    execAll (i :: rest) s = execAll rest t := by
  simp only [execAll, h]

/-- One list of operations after another that answers a next state. -/
theorem execAll_append (is js : List Instr) (s t : State) (h : execAll is s = .next t) :
    execAll (is ++ js) s = execAll js t := by
  induction is generalizing s with
  | nil => cases h; rfl
  | cons i is ih =>
    simp only [List.cons_append, execAll] at h ⊢
    cases hi : exec i s with
    | next u => rw [hi] at h; exact ih u h
    | fault r => rw [hi] at h; cases h
    | refused r => rw [hi] at h; cases h

end Sys2Proof.Machine
end

