-- ==== Sys2Proof/Laws/PerInstr.lean ====
section
/-! SUPPORT. Per-instruction laws: the word of every operation matches its row of the opcode map
(30_encoding.md R101, R103). -/

namespace Sys2Proof.Laws.EncodeFixedBits

open Sys2Proof

/-- The word of the operation has, wherever the mask of its row of the opcode map is 1, the row's
bits. -/
def Statement (i : Instr) : Prop :=
  ∃ r ∈ opcodeRows, r.mnemonic = mnemonicOf i ∧ encode i &&& r.mask = r.bits

theorem nop : Statement .nop := ⟨_, .head _, rfl, rfl⟩

theorem evClkRise (c d : Bool) : Statement (.evClkRise c d) :=
  ⟨_, .tail _ (.head _), rfl, by cases c <;> cases d <;> decide⟩

theorem evDataChg (c d : Bool) : Statement (.evDataChg c d) :=
  ⟨_, .tail _ (.tail _ (.head _)), rfl, by cases c <;> cases d <;> decide⟩

theorem lineSample (c d : Bool) : Statement (.lineSample c d) :=
  ⟨_, .tail _ (.tail _ (.tail _ (.head _))), rfl, by cases c <;> cases d <;> decide⟩

theorem rxPush (b : Byte) : Statement (.rxPush b) :=
  ⟨_, .tail _ (.tail _ (.tail _ (.tail _ (.head _)))), rfl, by revert b; decide +kernel⟩

theorem serPoll : Statement .serPoll :=
  ⟨_, .tail _ (.tail _ (.tail _ (.tail _ (.tail _ (.head _))))), rfl, rfl⟩

theorem sampleTick : Statement .sampleTick :=
  ⟨_, .tail _ (.tail _ (.tail _ (.tail _ (.tail _ (.tail _ (.head _)))))), rfl, rfl⟩

theorem drain (q : BitVec 2) : Statement (.drain q) :=
  ⟨_, .tail _ (.tail _ (.tail _ (.tail _ (.tail _ (.tail _ (.tail _ (.head _))))))), rfl, by
    revert q; decide⟩

theorem readStatus (sel : BitVec 4) : Statement (.readStatus sel) :=
  ⟨_, .tail _ (.tail _ (.tail _ (.tail _ (.tail _ (.tail _ (.tail _ (.tail _ (.head _)))))))), rfl, by
    revert sel; decide⟩

theorem init : Statement .init :=
  ⟨_, .tail _ (.tail _ (.tail _ (.tail _ (.tail _ (.tail _ (.tail _ (.tail _ (.tail _ (.head _))))))))),
    rfl, rfl⟩

end Sys2Proof.Laws.EncodeFixedBits
end

