-- ==== Sys2Proof/Tests/Slice0.lean ====
section
/-! SUPPORT. The model's own tests. Expected results come from spec/95_test_vectors.md (the id of the
vector is in the comment) or are worked out from the rule named; the `hyps_` theorems show a state and
operands that meet the hypotheses of a statement. -/

set_option Elab.async false

namespace Sys2Proof.Tests

open Sys2Proof Sys2Proof.Machine

/-- The configuration of spec/95_test_vectors.md. -/
def vectorConfig : Config :=
  { Config.defaults
      { tempIdx := 2, humIdx := 4, slope := ⟨1 / 4, 1, 1⟩, intercept := ⟨0, 0, 0⟩,
        min := ⟨-40, 0, 0⟩, max := ⟨125, 100, 5000⟩ } with
    cal := ⟨-100, 0, 0⟩ }

/-- The state after reset under that configuration. -/
def base : State := State.powerOn vectorConfig

/-- The state after an operation. -/
def after (i : Instr) (s : State) : State :=
  match exec i s with
  | .next t => t
  | .fault _ => s
  | .refused _ => s

/-- Frame A of the vectors: field 600 at offset 3. -/
def frameA : List Byte := [0x16#8, 0x05#8, 0x01#8, 0x02#8, 0x58#8, 0x00#8, 0x00#8, 0x8A#8]

/-- A state inside a transaction, at the acknowledgment slot of a data byte (vector T-D14). -/
def atDataSlot : State :=
  { base with idle := false, bitcnt := 8#4, bytecnt := 255#8, shreg := 0x22#8, ptr := 0x10#8 }

/-- A port with two words, the first legal and the second not. -/
def withWords : State :=
  { base with port := [⟨.edge, 0x2002#16⟩, ⟨.poll, 0xA000#16⟩] }

/-! ### Well-formedness: each check refuses an ill-formed term -/

theorem test_wf_refuses_reserved_selectors :
    ([7#4, 11#4, 12#4, 13#4, 14#4, 15#4].map fun sel => (Instr.readStatus sel).wf) =
      [false, false, false, false, false, false] := by decide

theorem test_wf_accepts_assigned_selectors :
    ([0#4, 6#4, 8#4, 10#4].all fun sel => (Instr.readStatus sel).wf) = true := by decide

theorem test_config_accepts_the_vectors : vectorConfig.wf = true := by decide +kernel

theorem test_config_refuses_each_range :
    ([ { vectorConfig with regN := 0 }
     , { vectorConfig with regN := 257 }
     , { vectorConfig with hdr := [] }
     , { vectorConfig with frameLen := 3 }
     , { vectorConfig with frameLen := 17 }
     , { vectorConfig with rxCap := 0 }
     , { vectorConfig with rxCap := 65536 }
     , { vectorConfig with backlogKeep := 0 }
     , { vectorConfig with backlogKeep := 257 }
     , { vectorConfig with wCap := 0 }
     , { vectorConfig with wCap := 65536 }
     , { vectorConfig with src := ⟨.twi 256, .none, .none⟩ }
     , { vectorConfig with src := ⟨.none, .none, .ser 6⟩ }
     , { vectorConfig with min := ⟨0, 101, 0⟩ } ] : List Config).all (fun c => !c.wf) = true := by
  decide +kernel

/-! ### Decoding: words written out from 30_encoding.md R101 and R103 (vectors 2.1) -/

theorem test_decode_nop : decode 0b0000000000000000#16 = .legal .nop := by decide
theorem test_decode_ev_clk_rise :
    decode 0b0001000000000001#16 = .legal (.evClkRise false true) := by decide
theorem test_decode_ev_data_chg :
    decode 0b0010000000000010#16 = .legal (.evDataChg true false) := by decide
theorem test_decode_line_sample :
    decode 0b0011000000000010#16 = .legal (.lineSample true false) := by decide
theorem test_decode_rx_push : decode 0b0100000010001010#16 = .legal (.rxPush 0x8A#8) := by decide
theorem test_decode_ser_poll : decode 0b0101000000000000#16 = .legal .serPoll := by decide
theorem test_decode_sample_tick : decode 0b0110000000000000#16 = .legal .sampleTick := by decide
theorem test_decode_drain : decode 0b0111000000000010#16 = .legal (.drain 2#2) := by decide
theorem test_decode_read_status : decode 0b1000000000001010#16 = .legal (.readStatus 10#4) := by
  decide
theorem test_decode_init : decode 0b1001000000000000#16 = .legal .init := by decide

theorem test_encode_words :
    [Instr.nop, .evClkRise true true, .evDataChg true false, .lineSample true true, .rxPush 0xFF#8,
      .serPoll, .sampleTick, .drain 3#2, .readStatus 10#4, .init].map encode =
    [0x0000#16, 0x1003#16, 0x2002#16, 0x3003#16, 0x40FF#16, 0x5000#16, 0x6000#16, 0x7003#16, 0x800A#16,
      0x9000#16] := by decide

/-- The fifteen illegal words of vector 2.1. -/
theorem test_decode_illegal :
    [0x0001#16, 0x1004#16, 0x2010#16, 0x3800#16, 0x4100#16, 0x5001#16, 0x6800#16, 0x7004#16, 0x8007#16,
      0x800B#16, 0x800F#16, 0x8010#16, 0x9001#16, 0xA000#16, 0xFFFF#16].all
        (fun w => !(decode w).isLegal) = true := by decide

theorem test_decode_reasons :
    decode 0xA000#16 = .illegal .reservedOpcode 0xA000#16 ∧
    decode 0x1004#16 = .illegal .mustBeZeroBit 0x1004#16 ∧
    decode 0x8007#16 = .illegal .reservedSelector 0x8007#16 := by decide

theorem test_decodeTableWord :
    decodeTableWord 16 0x408A = some (.rxPush 0x8A#8) ∧ decodeTableWord 16 0x4100 = none := by decide

/-- A line with a comment, a hexadecimal and a decimal operand (30_encoding.md R108). -/
theorem test_assemble_line :
    assembleLine "  LINE_SAMPLE 0x1, 0 ; fall".toList = some [.lineSample true false] := by
  decide +kernel

theorem test_assemble_refuses_out_of_range : assembleLine "DRAIN 4".toList = none := by decide +kernel

/-! ### Single operations -/

/-- T-D5: the eighth address bit is shifted in and latched as the direction. -/
theorem test_clk_rise_latches_direction :
    let t := after (.evClkRise true true)
      { base with idle := false, bitcnt := 7#4, shreg := 0x27#8 }
    (t.shreg, t.bitcnt, t.dir) = (0x4F#8, 8#4, true) := by decide

/-- T-D12: a NACKed data byte is stored, the pointer advances, and the transaction ends. -/
theorem test_clk_rise_stores_nacked_byte :
    let t := after (.evClkRise true true)
      { base with
        idle := false, bitcnt := 8#4, bytecnt := 2#8, dir := true, shreg := 0xCD#8, ptr := 0x06#8 }
    (t.img, t.ptr, t.idle, t.bytecnt, t.out) = ([(6, 0xCD#8)], 0x07#8, true, 3#8, []) := by decide

/-- T-D15: a repeated START keeps the pointer and the direction. -/
theorem test_data_chg_repeated_start :
    let t := after (.evDataChg true false)
      { base with idle := false, bitcnt := 5#4, bytecnt := 2#8, ptr := 0x07#8, dir := true }
    (t.idle, t.bitcnt, t.bytecnt, t.ptr, t.dir) = (false, 0#4, 0#8, 0x07#8, true) := by decide

/-- T-D17: SDA changes while SCL is low. -/
theorem test_data_chg_with_clock_low :
    (after (.evDataChg false true) { base with idle := false }).idle = false := by decide

/-- T-L3: SDA and SCL rise in one sample; the new SDA level is sampled and there is no STOP. -/
theorem test_line_sample_rise_with_data :
    let t := after (.lineSample true true)
      { base with idle := false, feScl := false, feSda := false }
    (t.idle, t.shreg, t.bitcnt, t.feScl, t.feSda) = (false, 0x01#8, 1#4, true, true) := by decide

/-- T-L1: SDA falls while SCL stays high, a START. -/
theorem test_line_sample_start :
    let t := after (.lineSample true false) base
    (t.idle, t.feScl, t.feSda) = (false, true, false) := by decide

/-- T-RXOVF: on a full FIFO the new byte is dropped. -/
theorem test_rx_push_overflow :
    let t := after (.rxPush 0x03#8)
      { base with cfg := { vectorConfig with rxCap := 2 }, rxq := [0x01#8, 0x02#8] }
    (t.rxq, t.fRxovf, t.out) = ([0x01#8, 0x02#8], true, [.report .rxOverflow .warning [3]]) := by
  decide

/-- T-F1: frame A gives 600 to the gas window. -/
theorem test_ser_poll_frame_a :
    let t := after .serPoll { base with rxq := frameA }
    (t.win.gas, t.fpos, t.rxq, t.out) = ([600#16], 0#4, [], []) := by decide +kernel

/-- T-F6: with HDR_RESCAN = 1 the byte that breaks a partial header begins the next one. -/
theorem test_ser_poll_rescan :
    let t := after .serPoll
      { base with
        cfg := { vectorConfig with hdrRescan := true }
        fpos := 1#4
        fbuf := [0x16#8, 0x00#8, 0x00#8, 0x00#8, 0x00#8, 0x00#8, 0x00#8, 0x00#8]
        rxq := [0x16#8] }
    (t.fpos, t.out) = (1#4, [.report .serHdrMismatch .diagnostic [1, 0x16]]) := by decide +kernel

/-- T-WOVF, the first tick: the big-endian pair at index 2 for temperature, at 4 for humidity. -/
theorem test_sample_tick_pair :
    let t := after .sampleTick { base with img := [(2, 0x12#8), (3, 0x34#8)] }
    (t.win.temperature, t.win.humidity, t.win.gas) = ([0x1234#16], [0x0000#16], []) := by decide

/-- T-WRAP: the pair at the last index takes its low byte from index 0. -/
theorem test_sample_tick_wraps :
    let t := after .sampleTick
      { base with
        cfg := { vectorConfig with regN := 4, src := ⟨.twi 3, .none, .none⟩ }
        img := [(0, 0xC3#8), (2, 0xA1#8), (3, 0xB2#8)] }
    t.win.temperature = [0xB2C3#16] := by decide

/-- S1: the median of the source's example is 401, published as 0.25. -/
theorem test_drain_publishes_the_median :
    let t := after (.drain 0#2)
      { base with win := ⟨[400#16, 402#16, 398#16, 10000#16, 401#16], [], []⟩ }
    (t.win.temperature, t.out) = ([], [.publish .temperature 0x3E800000#32]) := by decide +kernel

/-- Range check: 901 gives 125.25, above the inclusive end. -/
theorem test_drain_rejects_out_of_range :
    let t := after (.drain 0#2) { base with win := ⟨[901#16], [], []⟩ }
    (t.win.temperature, t.out) = ([], [.report .aggOutOfRange .warning [0, 901]]) := by decide +kernel

/-- T-STOPMID: DSTAT and DPTR after three bits and a STOP. -/
theorem test_read_status_dstat :
    (after (.readStatus 0#4) { base with bitcnt := 3#4, shreg := 0x05#8 }).out =
      [.result 0x0007#16] := by decide

/-- P2: DSTAT with byte index 1 after the address NACK. -/
theorem test_read_status_bytecnt :
    (after (.readStatus 0#4) { base with bytecnt := 1#8, ptr := 0x07#8 }).out =
      [.result 0x0101#16] := by decide

/-- T-NOSRC: INIT without a byte source. -/
theorem test_init_misconfig :
    let t := after .init { base with cfg := { vectorConfig with serAttached := false } }
    (t.fMisconfig, t.out) = (true, [.report .serMisconfig .warning []]) := by decide

/-- 2.6: INIT restores the reset state. -/
theorem test_init_restores_reset :
    after .init { atDataSlot with img := [(3, 0x7F#8)], fIllegal := true, rxq := [0x16#8] } = base := by
  decide +kernel

theorem test_nop : (after .nop atDataSlot).shreg = 0x22#8 := by decide

/-- RoundBinary32 (vectors 2.5): 1/3, 1/10 and the two ties. -/
theorem test_round_binary32 :
    [roundBinary32 (1 / 3), roundBinary32 (1 / 10), roundBinary32 (1 + 1 / 2 ^ 24),
      roundBinary32 (1 + 3 / 2 ^ 24), roundBinary32 (-1 / 4)] =
    [0x3EAAAAAB#32, 0x3DCCCCCD#32, 0x3F800000#32, 0x3F800002#32, 0xBE800000#32] := by decide +kernel

/-- The word placed by `withFetchWord` is the next one consumed. -/
theorem test_with_fetch_word :
    step (State.withFetchWord base 16 0x2002) =
      exec (.evDataChg true false) { base with stepIndex := 1 } := rfl

/-! ### Hypotheses of the statements are met -/

theorem base_inv : base.Inv := by
  refine ⟨by decide +kernel, by decide, by decide, by decide, by decide, fun q => ?_, by decide,
    by decide, by decide, by decide⟩
  cases q <;> decide

theorem atDataSlot_inv : atDataSlot.Inv := by
  refine ⟨by decide +kernel, by decide, by decide, by decide, by decide, fun q => ?_, by decide,
    by decide, by decide, by decide⟩
  cases q <;> decide

/-- A state with frame A waiting. -/
def frameWaiting : State := { base with rxq := frameA }

theorem frameWaiting_inv : frameWaiting.Inv := by
  refine ⟨by decide +kernel, by decide, by decide, by decide, by decide, fun q => ?_, by decide,
    by decide, by decide, by decide⟩
  cases q <;> decide

/-- A state with one byte waiting, `fpos = p` bytes of frame A collected, and frame A's later bytes not
yet there. -/
def byteWaiting (p : BitVec 4) (b : Byte) : State :=
  { base with
    fpos := p
    fbuf := frameA.take p.toNat ++ List.replicate (8 - p.toNat) 0x00#8
    rxq := [b] }

theorem byteWaiting_inv (p : BitVec 4) (b : Byte) (h : p.toNat < 8) : (byteWaiting p b).Inv := by
  have hbuf : ∀ q : BitVec 4, q.toNat < 8 →
      (frameA.take q.toNat ++ List.replicate (8 - q.toNat) 0x00#8).length = 8 ∧
      (frameA.take q.toNat ++ List.replicate (8 - q.toNat) 0x00#8).take (min q.toNat 3) =
        vectorConfig.hdr.take (min q.toNat 3) := by decide +kernel
  exact
    { base_inv with
      fpos := h
      rxq := (by decide : (1 : Nat) ≤ 256)
      fbuf := (hbuf p h).1
      header := (hbuf p h).2 }

theorem frameA_valid : validFrame vectorConfig frameA := by
  refine ⟨by decide, by decide, by decide⟩

theorem hyps_DecodeOfEncode : (Instr.readStatus 10#4).wf = true := by decide
theorem hyps_EncodeOfDecode : decode 0x9000#16 = .legal .init := by decide
theorem hyps_LegalWords_reserved_selector :
    0x8007#16 &&& 0xFFF0#16 = 0x8000#16 ∧ (decode 0x8007#16).isLegal = false := by decide
theorem hyps_AssemblerEmitsOnlyLegalWords :
    assemble ["INIT".toList, "TXBYTE 0x4E, 0".toList, "; note".toList] =
      some [0x9000#16, 0x1002#16, 0x1003#16, 0x1002#16, 0x1002#16, 0x1003#16, 0x1003#16, 0x1003#16,
        0x1002#16, 0x1002#16] := by decide +kernel
theorem hyps_StepRunsTheDecodedOperation :
    withWords.port = ⟨.edge, 0x2002#16⟩ :: [⟨.poll, 0xA000#16⟩] ∧
      decode 0x2002#16 = .legal (.evDataChg true false) := by decide
theorem hyps_StepOnIllegalWord :
    ({ base with port := [⟨.poll, 0xA000#16⟩] } : State).port = [⟨.poll, 0xA000#16⟩] ∧
      (decode 0xA000#16).isLegal = false := by decide
theorem hyps_StepWithoutAWord : base.port = [] := by decide
theorem hyps_StepConsumes :
    step withWords = .next (startCondition
      { base with port := [⟨.poll, 0xA000#16⟩], stepIndex := 1 }) := rfl
theorem hyps_StepOnlyAppends : ∃ t, step { base with port := [⟨.poll, 0xA000#16⟩] } = .next t ∧
    t.out = [.report .illegalOp .warning [0xA000]] := ⟨_, rfl, rfl⟩
theorem hyps_RunIsItsWords : 2 ≤ withWords.port.length := by decide
theorem hyps_RunIgnoresAgents :
    [⟨Agent.serial, 0x2002#16⟩, ⟨.serial, 0xA000#16⟩].map PortWord.word =
      withWords.port.map PortWord.word := by decide
theorem hyps_EventsComeFrom :
    (Instr.readStatus 0#4).wf = true ∧
      ∃ t, exec (.readStatus 0#4) base = .next t ∧ t.out = base.out ++ [.result 0x0001#16] :=
  ⟨by decide, _, rfl, rfl⟩
theorem hyps_EveryStepKeeps : withWords.Inv ∧ ∃ t, step withWords = .next t ∧ t.idle = false :=
  ⟨{ base_inv with }, _, rfl, rfl⟩
theorem hyps_OnlyAStart :
    base.idle = true ∧ ∃ t, exec (.lineSample true false) base = .next t ∧ t.idle = false :=
  ⟨rfl, _, rfl, rfl⟩
theorem hyps_OnlyEdge :
    presenter .serPoll ≠ .edge ∧ Instr.serPoll ≠ .init ∧ ∃ t, exec .serPoll frameWaiting = .next t :=
  ⟨by decide, by decide, _, rfl⟩
theorem hyps_OnlySerial :
    (∀ b, Instr.sampleTick ≠ .rxPush b) ∧ Instr.sampleTick ≠ .serPoll ∧ Instr.sampleTick ≠ .init ∧
      ∃ t, exec .sampleTick frameWaiting = .next t :=
  ⟨by simp, by decide, by decide, _, rfl⟩
theorem hyps_Windows_tick :
    ∃ t, exec .sampleTick base = .next t ∧ t.win.get .temperature ≠ base.win.get .temperature :=
  ⟨_, rfl, by decide⟩
theorem hyps_Windows_poll :
    ∃ t, exec .serPoll frameWaiting = .next t ∧ t.win.get .gas ≠ frameWaiting.win.get .gas :=
  ⟨_, rfl, by decide +kernel⟩
theorem hyps_Windows_drain :
    ∃ t, exec (.drain 3#2) { base with win := ⟨[], [7#16], []⟩ } = .next t ∧
      t.win.get .humidity ≠ [7#16] := ⟨_, rfl, by decide +kernel⟩
theorem hyps_OnlyInitClears :
    Instr.nop ≠ .init ∧ ∃ t, exec .nop (withFlags true true true true base) = .next t ∧
      t.fRxovf = true ∧ t.fWinovf = true ∧ t.fIllegal = true ∧ t.fMisconfig = true :=
  ⟨by decide, _, rfl, rfl, rfl, rfl, rfl⟩
theorem hyps_StickyFlags :
    Instr.readStatus 4#4 ≠ .readStatus 5#4 ∧ ∃ t, exec (.readStatus 4#4) frameWaiting = .next t :=
  ⟨by decide, _, rfl⟩
theorem hyps_DeviceAddress :
    Instr.readStatus 1#4 ≠ .readStatus 2#4 ∧ ∃ t, exec (.readStatus 1#4) atDataSlot = .next t :=
  ⟨by decide, _, rfl⟩
theorem hyps_FrameBuffer :
    frameWaiting.Inv ∧ frameA.length = frameWaiting.fbuf.length ∧
      frameA.take frameWaiting.fpos.toNat = frameWaiting.fbuf.take frameWaiting.fpos.toNat ∧
      ∃ t, exec .serPoll frameWaiting = .next t :=
  ⟨frameWaiting_inv, by decide, by decide, _, rfl⟩
theorem hyps_ClkRiseIdle : base.idle = true := by decide
theorem hyps_ClkRiseDataBit :
    let s : State := { base with idle := false, bitcnt := 7#4 }
    let r : State := { base with idle := false, bitcnt := 0#4 }
    s.idle = false ∧ s.bitcnt.toNat ≤ 7 ∧ r.idle = false ∧ r.bitcnt.toNat ≤ 7 := by decide
theorem hyps_ClkRiseAddress :
    let s : State := { base with idle := false, bitcnt := 8#4, shreg := 0x4E#8 }
    s.idle = false ∧ s.bitcnt.toNat = 8 ∧ s.bytecnt.toNat = 0 := by decide
theorem hyps_ClkRisePointer :
    let s : State := { base with idle := false, bitcnt := 8#4, bytecnt := 1#8, shreg := 0x05#8 }
    s.idle = false ∧ s.bitcnt.toNat = 8 ∧ s.bytecnt.toNat = 1 ∧ s.dir = false := by decide
theorem hyps_ClkRiseData_write :
    atDataSlot.Inv ∧ atDataSlot.idle = false ∧ atDataSlot.bitcnt.toNat = 8 ∧
      atDataSlot.bytecnt.toNat ≠ 0 ∧ ¬(atDataSlot.bytecnt.toNat = 1 ∧ atDataSlot.dir = false) :=
  ⟨atDataSlot_inv, by decide, by decide, by decide, by decide⟩
theorem hyps_ClkRiseData_read :
    let s : State := { atDataSlot with bytecnt := 1#8, dir := true, ptr := 0xFF#8 }
    s.idle = false ∧ s.bitcnt.toNat = 8 ∧ s.bytecnt.toNat ≠ 0 ∧
      ¬(s.bytecnt.toNat = 1 ∧ s.dir = false) := by decide
theorem hyps_EightClockRises :
    let s : State := { base with idle := false }
    s.idle = false ∧ s.bitcnt = 0#4 := by decide
theorem hyps_WriteTransaction :
    atDataSlot.Inv ∧ (0x4E#8).getLsbD 0 = false ∧ [true, false].length ≤ 8 :=
  ⟨atDataSlot_inv, by decide, by decide⟩
theorem hyps_ReadTransaction : atDataSlot.Inv ∧ (0x4F#8).getLsbD 0 = true :=
  ⟨atDataSlot_inv, by decide⟩
theorem hyps_SerialPathNoSource :
    ({ base with cfg := { vectorConfig with serAttached := false } } : State).cfg.serAttached =
      false := by decide
theorem hyps_SerPollKeeps :
    let s : State := { base with rxq := 0x00#8 :: frameA }
    s.cfg.serAttached = true ∧ s.cfg.backlogKeep < s.rxq.length := by decide
theorem hyps_SerPollOldest :
    frameWaiting.cfg.serAttached = true ∧ frameWaiting.rxq = 0x16#8 :: frameA.tail ∧
      frameWaiting.rxq.length ≤ frameWaiting.cfg.backlogKeep := by decide
/-- Header match at fpos 0, mismatch at fpos 2, body at fpos 3 and the last byte at fpos 7, valid and
not. -/
theorem hyps_SerPollOneByte :
    ∀ p ∈ [(0#4, 0x16#8), (2#4, 0x02#8), (3#4, 0x02#8), (7#4, 0x8A#8), (7#4, 0x8B#8)],
      (byteWaiting p.1 p.2).Inv ∧ (byteWaiting p.1 p.2).cfg.serAttached = true ∧
        (byteWaiting p.1 p.2).rxq = [p.2] := by
  intro p hp
  refine ⟨byteWaiting_inv p.1 p.2 ?_, rfl, rfl⟩
  fin_cases hp <;> decide
theorem hyps_Checksum : 1 ≤ vectorConfig.frameLen ∧ frameA.length = vectorConfig.frameLen := by decide
theorem hyps_ValidFrames :
    frameWaiting.Inv ∧ frameWaiting.cfg.serAttached = true ∧ frameWaiting.fpos = 0#4 ∧
      frameWaiting.rxq = [frameA].flatten ∧ (∀ f ∈ [frameA], validFrame frameWaiting.cfg f) ∧
      frameWaiting.rxq.length ≤ frameWaiting.cfg.backlogKeep :=
  ⟨frameWaiting_inv, by decide, by decide, by decide,
    fun f hf => by rw [List.mem_singleton.1 hf]; exact frameA_valid, by decide⟩
theorem hyps_CorruptedFrame :
    let s : State := { frameWaiting with rxq := frameA.set 4 0x59#8 }
    s.cfg.serAttached = true ∧ s.fpos = 0#4 ∧ s.cfg.hdrLen ≤ 4 ∧ 4 < s.cfg.frameLen ∧
      frameA[4]? ≠ some 0x59#8 ∧ s.rxq = frameA.set 4 0x59#8 ∧ s.rxq.length ≤ s.cfg.backlogKeep := by
  decide
theorem hyps_CorruptedFrame_inv :
    ({ frameWaiting with rxq := frameA.set 4 0x59#8 } : State).Inv ∧
      validFrame frameWaiting.cfg frameA :=
  ⟨{ frameWaiting_inv with rxq := by decide }, frameA_valid⟩
theorem hyps_SampleTickBusy : atDataSlot.idle = false := by decide
theorem hyps_SampleTickIdle : base.idle = true := by decide
theorem hyps_Median : [9#16, 3#16] ≠ [] := by decide
theorem hyps_DrainEmpty : base.win.get .gas = [] := by decide
theorem hyps_DrainNonEmpty :
    ({ base with win := ⟨[], [7#16], []⟩ } : State).win.get .humidity ≠ [] := by decide
theorem hyps_RoundNearest :
    |(1 / 3 : Rat)| < 2 ^ 128 - 2 ^ 103 ∧ binary32Finite 0x3EAAAAAB#32 = true := by
  constructor
  · rw [abs_of_pos (by norm_num)]
    norm_num
  · decide
theorem hyps_RoundOverflow :
    (2 ^ 128 - 2 ^ 103 : Rat) ≤ 2 ^ 128 - 2 ^ 103 ∧
      (-(2 ^ 128 - 2 ^ 103) : Rat) ≤ -(2 ^ 128 - 2 ^ 103) := ⟨le_refl _, le_refl _⟩
theorem hyps_ReadStatus : frameWaiting.Inv := frameWaiting_inv
theorem hyps_ReadStatusReserved :
    (7#4).toNat ∈ [7, 11, 12, 13, 14, 15] ∧ (11#4).toNat ∈ [7, 11, 12, 13, 14, 15] ∧
      (15#4).toNat ∈ [7, 11, 12, 13, 14, 15] := by decide
theorem hyps_NopOpcodeZero :
    (0x0001#16).extractLsb' 12 4 = 0x0#4 ∧ 0x0001#16 ≠ 0x0000#16 ∧
      (0x0FFF#16).extractLsb' 12 4 = 0x0#4 ∧ 0x0FFF#16 ≠ 0x0000#16 := by decide

end Sys2Proof.Tests
end

section
/-! Each operation as a function of the state, what a step can do, and the frame of each operation: which
fields it can change (10_state.md R48). -/

namespace Sys2Proof.Machine

open Sys2Proof

/-! ### Operations and steps as functions -/

/-- The effect of READ_STATUS on the state. -/
def statusRead (sel : BitVec 4) (s : State) : State :=
  match statusReg sel s with
  | some v => emitResult v s
  | none => illegalOp (encode (.readStatus sel)) s

/-- The effect of INIT on the state. -/
def stateAfterInit (s : State) : State :=
  if s.cfg.serAttached then resetState s
  else emitReport .serMisconfig .warning [] (setMisconfig (resetState s))

/-- The effect of an operation on the state: `exec` without its outcome (`exec_eq_effect`). -/
def effect : Instr → State → State
  | .nop, s => s
  | .evClkRise c d, s => clkRise c d s
  | .evDataChg c d, s => dataChg c d s
  | .lineSample c d, s => lineSampled c d s
  | .rxPush b, s => receiveByte b s
  | .serPoll, s => serialPass s
  | .sampleTick, s => sampleImage s
  | .drain q, s => (drainTargets q).foldl (fun t r => drainOne r t) s
  | .readStatus sel, s => statusRead sel s
  | .init, s => stateAfterInit s

/-- Every operation answers a next state (60_exceptions.md R250). -/
theorem exec_eq_effect (i : Instr) (s : State) : exec i s = .next (effect i s) := by
  cases i with
  | readStatus sel =>
    show execReadStatus sel s = .next (statusRead sel s)
    unfold execReadStatus statusRead
    cases statusReg sel s <;> rfl
  | _ => rfl

theorem exec_eq_next_iff (i : Instr) (s t : State) : exec i s = .next t ↔ effect i s = t := by
  simp [exec_eq_effect]

/-- What a step can do: nothing on an empty port; otherwise it consumes the head word and is the
operation the word decodes to, or ILLEGAL of the word. -/
theorem step_cases (s t : State) (h : step s = .next t) :
    (s.port = [] ∧ t = s) ∨
      ∃ p rest, s.port = p :: rest ∧
        ((∃ i, decode p.word = .legal i ∧
            t = effect i { s with port := rest, stepIndex := s.stepIndex + 1 }) ∨
          ∃ w, t = illegalOp w { s with port := rest, stepIndex := s.stepIndex + 1 }) := by
  rcases fetch_cases s with ⟨hp, hf⟩ | ⟨p, rest, hp, hf⟩
  · simp only [step, hf, Host.Outcome.next.injEq] at h
    exact .inl ⟨hp, h.symm⟩
  · simp only [step, hf, execWord] at h
    refine .inr ⟨p, rest, hp, ?_⟩
    cases hd : decode p.word with
    | legal i =>
      rw [hd] at h
      exact .inl ⟨i, rfl, ((exec_eq_next_iff _ _ _).1 h).symm⟩
    | illegal r w =>
      rw [hd] at h
      cases h
      exact .inr ⟨w, rfl⟩

/-! ### LINE_SAMPLE -/

/-- What the data change, the clock rise and the update of the kept levels all keep, LINE_SAMPLE keeps. -/
theorem lineSampled_induction (P : State → Prop) (c d : Bool) (s : State) (hs : P s)
    (hdata : ∀ hi t, P t → P (dataChg hi d t)) (hclk : ∀ t, P t → P (clkRise true d t))
    (hlevels : ∀ t, P t → P { t with feScl := c, feSda := d }) : P (lineSampled c d s) := by
  unfold lineSampled
  dsimp only
  have hchanged : P (if d != s.feSda then dataChg (s.feScl && c) d s else s) := by
    split
    · exact hdata _ s hs
    · exact hs
  refine hlevels _ ?_
  split
  · exact hclk _ hchanged
  · exact hchanged

/-! ### Frames -/

/-- A data change writes fields of the decoder only. -/
theorem dataChg_only (c d : Bool) (s : State) :
    ∃ i bc yc h, dataChg c d s = { s with idle := i, bitcnt := bc, bytecnt := yc, shreg := h } := by
  rcases dataChg_cases c d s with ⟨-, -, e⟩ | ⟨-, -, e⟩ | ⟨-, e⟩ <;> exact ⟨_, _, _, _, e⟩

/-- LINE_SAMPLE changes the decoder, the image, the front end and the output stream only. -/
theorem lineSampled_only (c d : Bool) (s : State) :
    ∃ i bc yc r h p a m l l' o, lineSampled c d s =
      { s with
        idle := i, bitcnt := bc, bytecnt := yc, dir := r, shreg := h, ptr := p, devaddr := a
        img := m, feScl := l, feSda := l', out := o } := by
  refine lineSampled_induction (fun t => ∃ i bc yc r h p a m l l' o, t =
    { s with
      idle := i, bitcnt := bc, bytecnt := yc, dir := r, shreg := h, ptr := p, devaddr := a
      img := m, feScl := l, feSda := l', out := o }) c d s ?_ ?_ ?_ ?_
  · exact ⟨_, _, _, _, _, _, _, _, _, _, _, rfl⟩
  · rintro hi t ⟨_, _, _, r, _, p, a, m, l, l', o, rfl⟩
    obtain ⟨_, _, _, _, e⟩ := dataChg_only hi d _
    exact ⟨_, _, _, _, _, _, _, _, _, _, _, e⟩
  · rintro t ⟨_, _, _, _, _, _, _, _, l, l', _, rfl⟩
    obtain ⟨_, _, _, _, _, _, _, _, _, e⟩ := clkRise_only true d _
    exact ⟨_, _, _, _, _, _, _, _, _, _, _, e⟩
  · rintro t ⟨_, _, _, _, _, _, _, _, _, _, _, rfl⟩
    exact ⟨_, _, _, _, _, _, _, _, _, _, _, rfl⟩

/-- RX_PUSH changes the FIFO, `f_rxovf` and the output stream only. -/
theorem receiveByte_only (b : Byte) (s : State) :
    ∃ q f o, receiveByte b s = { s with rxq := q, fRxovf := f, out := o } := by
  unfold receiveByte
  split
  · split <;> exact ⟨_, _, _, rfl⟩
  · exact ⟨_, _, _, rfl⟩

/-- The backlog skip keeps the newest `BACKLOG_KEEP` bytes and resets `fpos` where more are waiting. -/
theorem skipBacklog_eq (s : State) :
    skipBacklog s =
      if s.cfg.backlogKeep < s.rxq.length then
        { s with rxq := s.rxq.drop (s.rxq.length - s.cfg.backlogKeep), fpos := 0#4 }
      else s := by
  unfold skipBacklog fifoCount
  rw [discardBytes_eq_drop]

/-- A polling pass is the skip and then a fold of `SyncByte` over the bytes left, oldest first. -/
theorem serialPass_eq (s : State) :
    serialPass s =
      if s.cfg.serAttached then
        (skipBacklog s).rxq.foldl (fun t b => syncByte b t) { skipBacklog s with rxq := [] }
      else s := by
  unfold serialPass
  split
  · exact syncBytes_eq_foldl (skipBacklog s).rxq (skipBacklog s)
  · rfl

/-- What the skip, the emptying of the FIFO and every `SyncByte` keep, a polling pass keeps. -/
theorem serialPass_induction (P : State → Prop) (s : State) (hs : P s)
    (hfpos : ∀ t, P t → P { t with fpos := 0#4 })
    (hrxq : ∀ t q, q.length ≤ t.rxq.length → P t → P { t with rxq := q })
    (hbyte : ∀ b t, P t → P (syncByte b t)) : P (serialPass s) := by
  have hskip : P (skipBacklog s) := by
    rw [skipBacklog_eq]
    split
    · exact hfpos _ (hrxq s _ (List.drop_sublist _ _).length_le hs)
    · exact hs
  rw [serialPass_eq]
  split
  · exact List.foldlRecOn _ _ (hrxq _ [] (Nat.zero_le _) hskip) fun t ht b _ => hbyte b t ht
  · exact hs

/-- SER_POLL changes the serial path, the windows, `f_winovf` and the output stream only. -/
theorem serialPass_only (s : State) :
    ∃ q p buf w f o, serialPass s =
      { s with rxq := q, fpos := p, fbuf := buf, win := w, fWinovf := f, out := o } := by
  refine serialPass_induction (fun t => ∃ q p buf w f o, t =
    { s with rxq := q, fpos := p, fbuf := buf, win := w, fWinovf := f, out := o }) s ?_ ?_ ?_ ?_
  · exact ⟨_, _, _, _, _, _, rfl⟩
  · rintro t ⟨_, _, _, _, _, _, rfl⟩
    exact ⟨_, _, _, _, _, _, rfl⟩
  · rintro t q - ⟨_, _, _, _, _, _, rfl⟩
    exact ⟨_, _, _, _, _, _, rfl⟩
  · rintro b t ⟨_, _, _, _, _, _, rfl⟩
    obtain ⟨_, _, _, _, _, e⟩ := syncByte_only b _
    exact ⟨_, _, _, _, _, _, e⟩

/-- SAMPLE_TICK changes windows, `f_winovf` and the output stream only. -/
theorem sampleImage_only (s : State) :
    ∃ w f o, sampleImage s = { s with win := w, fWinovf := f, out := o } := by
  unfold sampleImage
  split
  · exact foldl_winOnly appendImageSample appendImageSample_only Quantity.all s
  · exact ⟨_, _, _, rfl⟩

/-- DRAIN changes windows and the output stream only. -/
theorem foldl_drainOne_only (qs : List Quantity) (s : State) :
    ∃ w o, qs.foldl (fun t q => drainOne q t) s = { s with win := w, out := o } := by
  refine List.foldlRecOn (motive := fun t : State => ∃ w o, t = { s with win := w, out := o }) qs _
    ⟨s.win, s.out, rfl⟩ ?_
  rintro t ⟨_, _, rfl⟩ q -
  obtain ⟨_, _, e⟩ := drainOne_only q _
  exact ⟨_, _, e⟩

/-- READ_STATUS emits its register, or is the illegal word its selector makes it. -/
theorem statusRead_cases (sel : BitVec 4) (s : State) :
    (∃ v, statusReg sel s = some v ∧ statusRead sel s = emitResult v s) ∨
      (statusReg sel s = none ∧ statusRead sel s = illegalOp (encode (.readStatus sel)) s) := by
  unfold statusRead
  cases h : statusReg sel s with
  | none => exact .inr ⟨rfl, rfl⟩
  | some v => exact .inl ⟨v, rfl, rfl⟩

/-- READ_STATUS changes `f_illegal` and the output stream only. -/
theorem statusRead_only (sel : BitVec 4) (s : State) :
    ∃ f o, statusRead sel s = { s with fIllegal := f, out := o } := by
  rcases statusRead_cases sel s with ⟨v, -, e⟩ | ⟨-, e⟩ <;> exact ⟨_, _, e⟩

/-- INIT is ResetState, but for `f_misconfig` and the output stream. -/
theorem stateAfterInit_only (s : State) :
    ∃ f o, stateAfterInit s = { resetState s with fMisconfig := f, out := o } := by
  unfold stateAfterInit
  split <;> exact ⟨_, _, rfl⟩

/-! ### The sample of a quantity, by its source -/

theorem appendImageSample_of_twi {q : Quantity} {i : Nat} {s : State}
    (h : s.cfg.src.get q = .twi i) :
    appendImageSample q s = winAppend q (imgRead16 s i) s := by
  simp only [appendImageSample, h]

theorem appendImageSample_of_not_twi {q : Quantity} {s : State}
    (h : ∀ i, s.cfg.src.get q ≠ .twi i) : appendImageSample q s = s := by
  unfold appendImageSample
  split
  · rename_i i hsrc
    exact absurd hsrc (h i)
  · rfl
  · rfl

theorem appendFrameSample_of_ser {q : Quantity} {o : Nat} {s : State}
    (h : s.cfg.src.get q = .ser o) :
    appendFrameSample q s = winAppend q (frameField s o) s := by
  simp only [appendFrameSample, h]

theorem appendFrameSample_of_not_ser {q : Quantity} {s : State}
    (h : ∀ o, s.cfg.src.get q ≠ .ser o) : appendFrameSample q s = s := by
  unfold appendFrameSample
  split
  · rename_i o hsrc
    exact absurd hsrc (h o)
  · rfl
  · rfl

/-! ### `SyncByte` (42_frame_sync.md R173, R174) -/

section
variable {b : Byte} {s : State}

/-- The next byte of the header is stored. -/
theorem syncByte_of_header (hk : s.fpos.toNat < s.cfg.hdrLen)
    (hb : s.cfg.hdr[s.fpos.toNat]? = some b) :
    syncByte b s = { s with fbuf := s.fbuf.set s.fpos.toNat b, fpos := s.fpos + 1#4 } := by
  rw [syncByte, if_pos hk, if_pos hb]
  rfl

theorem syncByte_of_mismatch (hk : s.fpos.toNat < s.cfg.hdrLen)
    (hb : s.cfg.hdr[s.fpos.toNat]? ≠ some b) : syncByte b s = headerMismatch b s := by
  rw [syncByte, if_pos hk, if_neg hb]

/-- A byte after the header that is not the last of the frame is stored. -/
theorem syncByte_of_body (hk : s.cfg.hdrLen ≤ s.fpos.toNat)
    (hf : s.fpos.toNat + 1 < s.cfg.frameLen) :
    syncByte b s = { s with fbuf := s.fbuf.set s.fpos.toNat b, fpos := s.fpos + 1#4 } := by
  rw [syncByte, if_neg (by omega)]
  exact if_pos hf

/-- The last byte of a frame is stored and the frame is done. -/
theorem syncByte_of_last (hk : s.cfg.hdrLen ≤ s.fpos.toNat)
    (hf : s.cfg.frameLen ≤ s.fpos.toNat + 1) :
    syncByte b s = frameDone { s with fbuf := s.fbuf.set s.fpos.toNat b } := by
  rw [syncByte, if_neg (by omega)]
  exact if_neg (by omega)

end

/-- The four cases of `SyncByte`: the next header byte, a mismatch, a body byte, the last byte. -/
theorem syncByte_branches (b : Byte) (s : State) :
    (s.fpos.toNat < s.cfg.hdrLen ∧ s.cfg.hdr[s.fpos.toNat]? = some b) ∨
      (s.fpos.toNat < s.cfg.hdrLen ∧ s.cfg.hdr[s.fpos.toNat]? ≠ some b) ∨
      (s.cfg.hdrLen ≤ s.fpos.toNat ∧ s.fpos.toNat + 1 < s.cfg.frameLen) ∨
      (s.cfg.hdrLen ≤ s.fpos.toNat ∧ s.cfg.frameLen ≤ s.fpos.toNat + 1) := by
  rcases Nat.lt_or_ge s.fpos.toNat s.cfg.hdrLen with hk | hk
  · by_cases hb : s.cfg.hdr[s.fpos.toNat]? = some b
    · exact .inl ⟨hk, hb⟩
    · exact .inr (.inl ⟨hk, hb⟩)
  · rcases Nat.lt_or_ge (s.fpos.toNat + 1) s.cfg.frameLen with hf | hf
    · exact .inr (.inr (.inl ⟨hk, hf⟩))
    · exact .inr (.inr (.inr ⟨hk, hf⟩))

/-- A header mismatch is reported where it breaks a header in progress; the search starts again at
`fpos` 0, or at 1 where `HDR_RESCAN` finds that the byte begins a header. -/
theorem headerMismatch_eq (b : Byte) (s : State) :
    headerMismatch b s =
      { s with
        out := if 0 < s.fpos.toNat then
            s.out ++ [.report .serHdrMismatch .diagnostic [s.fpos.toNat, b.toNat]]
          else s.out
        fbuf := if s.cfg.hdrRescan = true ∧ s.cfg.hdr[0]? = some b then s.fbuf.set 0 b else s.fbuf
        fpos := if s.cfg.hdrRescan = true ∧ s.cfg.hdr[0]? = some b then 1#4 else 0#4 } := by
  unfold headerMismatch
  dsimp only
  split <;> split <;> rfl

section
variable {b : Byte} {s : State}

/-- The byte that broke a header begins one. -/
theorem headerMismatch_of_rescan (hr : s.cfg.hdrRescan = true ∧ s.cfg.hdr[0]? = some b) :
    headerMismatch b s =
      { s with
        out := if 0 < s.fpos.toNat then
            s.out ++ [.report .serHdrMismatch .diagnostic [s.fpos.toNat, b.toNat]]
          else s.out
        fbuf := s.fbuf.set 0 b
        fpos := 1#4 } := by
  rw [headerMismatch_eq, if_pos hr, if_pos hr]

/-- The byte that broke a header is dropped. -/
theorem headerMismatch_of_restart (hr : ¬(s.cfg.hdrRescan = true ∧ s.cfg.hdr[0]? = some b)) :
    headerMismatch b s =
      { s with
        out := if 0 < s.fpos.toNat then
            s.out ++ [.report .serHdrMismatch .diagnostic [s.fpos.toNat, b.toNat]]
          else s.out
        fpos := 0#4 } := by
  rw [headerMismatch_eq, if_neg hr, if_neg hr]

end

/-! ### Ownership (10_state.md R48) -/

/-- An operation of the edge-trigger context changes the decoder, the image, the front end and the output
stream only. -/
theorem effect_only_of_edge (i : Instr) (s : State) (h : presenter i = .edge) :
    ∃ id bc yc r v p a m l l' o, effect i s =
      { s with
        idle := id, bitcnt := bc, bytecnt := yc, dir := r, shreg := v, ptr := p, devaddr := a
        img := m, feScl := l, feSda := l', out := o } := by
  cases i
  case evClkRise c d =>
    obtain ⟨_, _, _, _, _, _, _, _, _, e⟩ := clkRise_only c d s
    exact ⟨_, _, _, _, _, _, _, _, _, _, _, e⟩
  case evDataChg c d =>
    obtain ⟨_, _, _, _, e⟩ := dataChg_only c d s
    exact ⟨_, _, _, _, _, _, _, _, _, _, _, e⟩
  case lineSample c d => exact lineSampled_only c d s
  all_goals simp [presenter] at h

/-- Any other operation but INIT changes the serial path, the windows, the flags and the output stream
only. -/
theorem effect_only_of_not_edge (i : Instr) (s : State) (h : presenter i ≠ .edge) (hi : i ≠ .init) :
    ∃ q p buf w f1 f2 f3 o, effect i s =
      { s with
        rxq := q, fpos := p, fbuf := buf, win := w, fRxovf := f1, fWinovf := f2, fIllegal := f3
        out := o } := by
  cases i
  case nop => exact ⟨_, _, _, _, _, _, _, _, rfl⟩
  case rxPush b =>
    obtain ⟨_, _, _, e⟩ := receiveByte_only b s
    exact ⟨_, _, _, _, _, _, _, _, e⟩
  case serPoll =>
    obtain ⟨_, _, _, _, _, _, e⟩ := serialPass_only s
    exact ⟨_, _, _, _, _, _, _, _, e⟩
  case sampleTick =>
    obtain ⟨_, _, _, e⟩ := sampleImage_only s
    exact ⟨_, _, _, _, _, _, _, _, e⟩
  case drain q =>
    obtain ⟨_, _, e⟩ := foldl_drainOne_only (drainTargets q) s
    exact ⟨_, _, _, _, _, _, _, _, e⟩
  case readStatus sel =>
    obtain ⟨_, _, e⟩ := statusRead_only sel s
    exact ⟨_, _, _, _, _, _, _, _, e⟩
  case init => exact absurd rfl hi
  all_goals simp [presenter] at h

/-- No operation touches the port, the position in the stream or the configuration. -/
theorem effect_keeps_port (i : Instr) (s : State) :
    (effect i s).port = s.port ∧ (effect i s).stepIndex = s.stepIndex ∧
      (effect i s).cfg = s.cfg := by
  by_cases hedge : presenter i = .edge
  · obtain ⟨_, _, _, _, _, _, _, _, _, _, _, e⟩ := effect_only_of_edge i s hedge
    rw [e]
    exact ⟨rfl, rfl, rfl⟩
  · by_cases hinit : i = .init
    · obtain ⟨_, _, e⟩ := stateAfterInit_only s
      rw [hinit, effect, e]
      exact ⟨rfl, rfl, rfl⟩
    · obtain ⟨_, _, _, _, _, _, _, _, e⟩ := effect_only_of_not_edge i s hedge hinit
      rw [e]
      exact ⟨rfl, rfl, rfl⟩

/-- Settles O8: `fetch` answers the head word, and `execWord` decodes it. -/
theorem stepRunsTheDecodedOperation : Obligations.StepRunsTheDecodedOperation := by
  unfold Obligations.StepRunsTheDecodedOperation
  intro s a w rest i hport hdecode
  simp only [step, fetch, hport, execWord, hdecode]

/-- Settles O12, from the frame of every operation. -/
theorem stepConsumesExactlyOneWord : Obligations.StepConsumesExactlyOneWord := by
  unfold Obligations.StepConsumesExactlyOneWord
  intro s t h
  rcases step_cases s t h with ⟨hp, rfl⟩ | ⟨p, rest, hp, ⟨i, -, rfl⟩ | ⟨w, rfl⟩⟩
  · simp [hp]
  · obtain ⟨hport, hindex, hcfg⟩ :=
      effect_keeps_port i { s with port := rest, stepIndex := s.stepIndex + 1 }
    simp [hport, hindex, hcfg, hp]
  · simp [hp]

/-- Settles O20, from the frame of the operations outside the edge-trigger context. -/
theorem onlyEdgeOperationsWriteTheDecoder : Obligations.OnlyEdgeOperationsWriteTheDecoder := by
  unfold Obligations.OnlyEdgeOperationsWriteTheDecoder
  intro i s t hedge hinit h
  obtain rfl := (exec_eq_next_iff i s t).1 h
  obtain ⟨_, _, _, _, _, _, _, _, e⟩ := effect_only_of_not_edge i s hedge hinit
  rw [e]
  rfl

/-- Settles O21, from the frame of each operation that is not a serial one. -/
theorem onlySerialOperationsWriteTheSerialPath :
    Obligations.OnlySerialOperationsWriteTheSerialPath := by
  unfold Obligations.OnlySerialOperationsWriteTheSerialPath
  intro i s t hpush hpoll hinit h
  obtain rfl := (exec_eq_next_iff i s t).1 h
  by_cases hedge : presenter i = .edge
  · obtain ⟨_, _, _, _, _, _, _, _, _, _, _, e⟩ := effect_only_of_edge i s hedge
    rw [e]
    rfl
  cases i
  case nop => rfl
  case sampleTick =>
    obtain ⟨_, _, _, e⟩ := sampleImage_only s
    rw [effect, e]
    rfl
  case drain q =>
    obtain ⟨_, _, e⟩ := foldl_drainOne_only (drainTargets q) s
    rw [effect, e]
    rfl
  case readStatus sel =>
    obtain ⟨_, _, e⟩ := statusRead_only sel s
    rw [effect, e]
    rfl
  case rxPush b => exact absurd rfl (hpush b)
  case serPoll => exact absurd rfl hpoll
  case init => exact absurd rfl hinit
  all_goals simp [presenter] at hedge

/-! ### Leaving idle (10_state.md R61, 41_twi_decoder.md R132) -/

/-- A clock rise does not leave idle: while idle it has no effect. -/
theorem clkRise_idle_of_idle (c d : Bool) (s : State) (h : s.idle = true) :
    (clkRise c d s).idle = true := by
  rcases clkRise_cases c d s with ⟨-, e⟩ | ⟨hbusy, -, -⟩ | ⟨hbusy, -, -⟩
  · rw [e, h]
  · simp [h] at hbusy
  · simp [h] at hbusy

/-- A data change leaves idle only as a START. -/
theorem start_of_dataChg_leaves_idle (c d : Bool) (s : State) (h : s.idle = true)
    (ht : (dataChg c d s).idle = false) : c = true ∧ d = false := by
  rcases dataChg_cases c d s with ⟨hc, hd, -⟩ | ⟨-, -, e⟩ | ⟨-, e⟩
  · exact ⟨hc, hd⟩
  · simp [e] at ht
  · simp [e, h] at ht

/-- LINE_SAMPLE leaves idle only by a START that its data change is. -/
theorem start_of_lineSampled_leaves_idle (c d : Bool) (s : State) (h : s.idle = true)
    (ht : (lineSampled c d s).idle = false) :
    s.feScl = true ∧ c = true ∧ s.feSda = true ∧ d = false := by
  have hchanged : (if d != s.feSda then dataChg (s.feScl && c) d s else s).idle = false := by
    by_contra hne
    have hclk := clkRise_idle_of_idle true d _ (Bool.eq_true_of_not_eq_false hne)
    unfold lineSampled at ht
    dsimp only at ht
    split at ht
    · rw [hclk] at ht; cases ht
    · exact hne ht
  split at hchanged
  · rename_i hd
    obtain ⟨hc, rfl⟩ := start_of_dataChg_leaves_idle _ d s h hchanged
    simpa [and_assoc] using And.intro hc hd
  · rw [h] at hchanged; cases hchanged

/-- Settles O19: of the operations that write `idle`, a clock rise and INIT do not leave it. -/
theorem onlyAStartLeavesIdle : Obligations.OnlyAStartLeavesIdle := by
  unfold Obligations.OnlyAStartLeavesIdle
  intro i s t hs h ht
  obtain rfl := (exec_eq_next_iff i s t).1 h
  cases i
  case evClkRise c d => simp [effect, clkRise_idle_of_idle c d s hs] at ht
  case evDataChg c d =>
    obtain ⟨hc, hd⟩ := start_of_dataChg_leaves_idle c d s hs ht
    simp [startEvent, hc, hd]
  case lineSample c d =>
    obtain ⟨hl, hc, hl', hd⟩ := start_of_lineSampled_leaves_idle c d s hs ht
    simp [startEvent, hl, hc, hl', hd]
  case init =>
    obtain ⟨_, _, e⟩ := stateAfterInit_only s
    simp [effect, e] at ht
  all_goals
    obtain ⟨hidle, -⟩ := Prod.mk.inj
      (onlyEdgeOperationsWriteTheDecoder _ s _ (by simp [presenter]) (by simp) h)
    rw [hidle, hs] at ht
    cases ht

end Sys2Proof.Machine
end

section
/-! Every operation keeps the invariants (10_state.md R61): one lemma per shared operation, then every
step. -/

namespace Sys2Proof.Machine

open Sys2Proof

/-! ### The windows -/

/-- The invariants do not look at the flags or the output stream. -/
theorem State.Inv.withFlagsAndOut {s : State} (h : s.Inv) (f1 f2 f3 f4 : Bool) (o : List Event) :
    State.Inv { s with fRxovf := f1, fWinovf := f2, fIllegal := f3, fMisconfig := f4, out := o } :=
  { h with }

/-- Another window no longer than the capacity keeps the invariants. -/
theorem State.Inv.setWin {s : State} (h : s.Inv) (q : Quantity) (v : List RawSample)
    (hv : v.length ≤ s.cfg.wCap) : State.Inv { s with win := s.win.set q v } :=
  { h with
    win := fun r => by
      rw [PerQuantity.get_set]
      split
      · exact hv
      · exact h.win r }

theorem winAppend_inv (q : Quantity) (v : RawSample) (s : State) (h : s.Inv) :
    (winAppend q v s).Inv := by
  rcases winAppend_cases q v s with ⟨hroom, e⟩ | ⟨-, e⟩ <;> rw [e]
  · exact h.setWin q _ (by simpa using hroom)
  · exact h.withFlagsAndOut _ _ _ _ _

theorem appendImageSample_inv (q : Quantity) (s : State) (h : s.Inv) :
    (appendImageSample q s).Inv := by
  unfold appendImageSample
  cases s.cfg.src.get q with
  | twi i => exact winAppend_inv q _ s h
  | ser o => exact h
  | none => exact h

theorem appendFrameSample_inv (q : Quantity) (s : State) (h : s.Inv) :
    (appendFrameSample q s).Inv := by
  unfold appendFrameSample
  cases s.cfg.src.get q with
  | ser o => exact winAppend_inv q _ s h
  | twi i => exact h
  | none => exact h

theorem sampleImage_inv (s : State) (h : s.Inv) : (sampleImage s).Inv := by
  unfold sampleImage
  split
  · exact List.foldlRecOn _ _ h fun t ht q _ => appendImageSample_inv q t ht
  · exact h

theorem drainOne_inv (q : Quantity) (s : State) (h : s.Inv) : (drainOne q s).Inv := by
  unfold drainOne publishChecked
  split
  · exact h.withFlagsAndOut _ _ _ _ _
  · dsimp only
    split <;> exact (h.withFlagsAndOut _ _ _ _ _).setWin q [] (Nat.zero_le _)

/-! ### The decoder -/

/-- A pointer that was reduced modulo `REG_N` is inside the image. -/
theorem wrapped_ptr_lt (c : Config) (h : c.wf = true) (v : Nat) :
    (BitVec.ofNat 8 (wrapN c v)).toNat < c.regN := by
  obtain ⟨hpos, hle, -⟩ := (Config.wf_iff c).1 h
  have := wrapN_lt c v hpos
  rw [BitVec.toNat_ofNat, Nat.mod_eq_of_lt (by omega)]
  exact this

theorem dataBit_inv (d : Bool) (s : State) (h : s.Inv) (hb : s.bitcnt.toNat < 8) :
    (dataBit d s).Inv :=
  { h with
    bitcnt := by
      rw [dataBit_bitcnt, BitVec.toNat_add, BitVec.toNat_ofNat]
      omega }

/-- Storing a data byte and advancing the pointer keep the invariants. -/
theorem storeByte_inv (s : State) (h : s.Inv) :
    (advancePointer (imgWrite s.ptr.toNat s.shreg s)).Inv :=
  { h with
    ptr := wrapped_ptr_lt s.cfg h.cfg _
    img := Memory.write_wf s.img _ _ h.img
    imgInside := Memory.write_inside s.img _ _ _ h.imgInside h.ptr }

theorem ackSlot_inv (d : Bool) (s : State) (h : s.Inv) : (ackSlot d s).Inv := by
  have hend : ∀ t : State, t.Inv → (ackEnd t).Inv := fun t ht =>
    { ht with bitcnt := Nat.zero_le _ }
  refine hend _ ?_
  unfold ackAddress ackPointer ackData
  split
  · cases d <;> exact { h with }
  · split
    · cases d
      · exact { h with ptr := wrapped_ptr_lt s.cfg h.cfg _ }
      · exact { h with }
    · cases d <;> exact { storeByte_inv s h with }

theorem clkRise_inv (c d : Bool) (s : State) (h : s.Inv) : (clkRise c d s).Inv := by
  rcases clkRise_cases c d s with ⟨-, e⟩ | ⟨-, hb, e⟩ | ⟨-, -, e⟩ <;> rw [e]
  · exact h
  · exact dataBit_inv d s h hb
  · exact ackSlot_inv d s h

theorem dataChg_inv (c d : Bool) (s : State) (h : s.Inv) : (dataChg c d s).Inv := by
  rcases dataChg_cases c d s with ⟨-, -, e⟩ | ⟨-, -, e⟩ | ⟨-, e⟩ <;> rw [e]
  · exact { h with bitcnt := Nat.zero_le _ }
  · exact { h with }
  · exact h

theorem lineSampled_inv (c d : Bool) (s : State) (h : s.Inv) : (lineSampled c d s).Inv :=
  lineSampled_induction State.Inv c d s h (fun hi => dataChg_inv hi d) (clkRise_inv true d)
    fun _ ht => { ht with }

/-! ### The serial path -/

/-- Lists that agree on their first k elements agree on one more after the byte the second has at k is
written at k of the first. -/
theorem take_set_succ {α : Type} (l m : List α) (k : Nat) (b : α) (hk : k < l.length)
    (hb : m[k]? = some b) (h : l.take k = m.take k) :
    (l.set k b).take (k + 1) = m.take (k + 1) := by
  rw [List.take_add_one, List.take_add_one, List.take_set_of_le (Nat.le_refl k), h, hb,
    List.getElem?_set_self hk]

/-- The search for a header starts again. -/
theorem State.Inv.restart {s : State} (h : s.Inv) : State.Inv { s with fpos := 0#4 } :=
  { h with
    fpos := Nat.lt_of_le_of_lt (Nat.zero_le _) h.fpos
    header := by simp }

/-- The next byte of the header is accepted at index k: one more byte matches. -/
theorem State.Inv.acceptHeader {s : State} (h : s.Inv) (k : Nat) (b : Byte) (hk : k < s.cfg.hdrLen)
    (hb : s.cfg.hdr[k]? = some b) (hpre : s.fbuf.take k = s.cfg.hdr.take k) :
    State.Inv { s with fbuf := s.fbuf.set k b, fpos := BitVec.ofNat 4 (k + 1) } := by
  obtain ⟨-, -, -, hlen, h16, -⟩ := (Config.wf_iff s.cfg).1 h.cfg
  have hbuf := h.fbuf
  have hk4 : (BitVec.ofNat 4 (k + 1)).toNat = k + 1 := by
    rw [BitVec.toNat_ofNat, Nat.mod_eq_of_lt (by omega)]
  refine { h with fpos := ?_, fbuf := ?_, header := ?_ }
  · dsimp only
    omega
  · simpa using hbuf
  · dsimp only
    rw [hk4, Nat.min_eq_left (by omega)]
    exact take_set_succ _ _ k b (by omega) hb hpre

/-- A byte after the header leaves the header part of the frame buffer. -/
theorem take_hdrLen_set (s : State) (b : Byte) (hk : s.cfg.hdrLen ≤ s.fpos.toNat) (h : s.Inv) :
    (s.fbuf.set s.fpos.toNat b).take s.cfg.hdrLen = s.cfg.hdr.take s.cfg.hdrLen := by
  have := h.header
  rw [Nat.min_eq_right hk] at this
  rw [List.take_set_of_le hk, this]

theorem fpos_add_one (k : BitVec 4) : k + 1#4 = BitVec.ofNat 4 (k.toNat + 1) := by
  apply BitVec.eq_of_toNat_eq
  simp

/-- A byte stored after the header keeps the invariants, wherever the frame goes on. -/
theorem State.Inv.storeBody {s : State} (h : s.Inv) (b : Byte) (p : Nat)
    (hk : s.cfg.hdrLen ≤ s.fpos.toNat) (hp : s.cfg.hdrLen ≤ p) (hlt : p < s.cfg.frameLen) :
    State.Inv { s with fbuf := s.fbuf.set s.fpos.toNat b, fpos := BitVec.ofNat 4 p } := by
  obtain ⟨-, -, -, -, h16, -⟩ := (Config.wf_iff s.cfg).1 h.cfg
  have hp4 : (BitVec.ofNat 4 p).toNat = p := by
    rw [BitVec.toNat_ofNat, Nat.mod_eq_of_lt (by omega)]
  refine { h with fpos := ?_, fbuf := ?_, header := ?_ }
  · dsimp only
    omega
  · simpa using h.fbuf
  · dsimp only
    rw [hp4, Nat.min_eq_right hp]
    exact take_hdrLen_set s b hk h

theorem frameDone_inv (s : State) (h : s.Inv) : (frameDone s).Inv := by
  refine State.Inv.restart ?_
  split
  · exact List.foldlRecOn _ _ h fun t ht q _ => appendFrameSample_inv q t ht
  · exact h.withFlagsAndOut _ _ _ _ _

theorem headerMismatch_inv (b : Byte) (s : State) (h : s.Inv) : (headerMismatch b s).Inv := by
  obtain ⟨-, -, hhdr, -⟩ := (Config.wf_iff s.cfg).1 h.cfg
  by_cases hr : s.cfg.hdrRescan = true ∧ s.cfg.hdr[0]? = some b
  · rw [headerMismatch_of_rescan hr]
    exact (h.acceptHeader 0 b (by omega) hr.2 rfl).withFlagsAndOut _ _ _ _ _
  · rw [headerMismatch_of_restart hr]
    exact h.restart.withFlagsAndOut _ _ _ _ _

theorem syncByte_inv (b : Byte) (s : State) (h : s.Inv) : (syncByte b s).Inv := by
  rcases syncByte_branches b s with ⟨hk, hb⟩ | ⟨hk, hb⟩ | ⟨hk, hf⟩ | ⟨hk, hf⟩
  · have hpre := h.header
    rw [Nat.min_eq_left hk.le] at hpre
    rw [syncByte_of_header hk hb, fpos_add_one]
    exact h.acceptHeader _ b hk hb hpre
  · rw [syncByte_of_mismatch hk hb]
    exact headerMismatch_inv b s h
  · rw [syncByte_of_body hk hf, fpos_add_one]
    exact h.storeBody b _ hk (by omega) hf
  · have hstored := h.storeBody b s.fpos.toNat hk hk h.fpos
    rw [BitVec.ofNat_toNat, BitVec.setWidth_eq] at hstored
    rw [syncByte_of_last hk hf]
    exact frameDone_inv _ hstored

theorem skipBacklog_inv (s : State) (h : s.Inv) : (skipBacklog s).Inv := by
  rw [skipBacklog_eq]
  split
  · exact { h.restart with rxq := (List.drop_sublist _ _).length_le.trans h.rxq }
  · exact h

theorem serialPass_inv (s : State) (h : s.Inv) : (serialPass s).Inv :=
  serialPass_induction State.Inv s h (fun _ ht => ht.restart)
    (fun _ _ hq ht => { ht with rxq := hq.trans ht.rxq }) syncByte_inv

theorem receiveByte_inv (b : Byte) (s : State) (h : s.Inv) : (receiveByte b s).Inv := by
  unfold receiveByte
  split
  · split
    · rename_i hroom
      exact { h with rxq := by simpa [fifoCount] using hroom }
    · exact h.withFlagsAndOut _ _ _ _ _
  · exact h

/-! ### Control -/

theorem statusRead_inv (sel : BitVec 4) (s : State) (h : s.Inv) : (statusRead sel s).Inv := by
  obtain ⟨f, o, e⟩ := statusRead_only sel s
  rw [e]
  exact h.withFlagsAndOut _ _ f _ o

/-- ResetState gives the invariants under every configuration in range. -/
theorem resetState_inv (s : State) (h : s.cfg.wf = true) : (resetState s).Inv := by
  obtain ⟨hreg, -, -, hlen, -⟩ := (Config.wf_iff s.cfg).1 h
  exact
    { cfg := h
      bitcnt := Nat.zero_le _
      ptr := hreg
      fpos := Nat.lt_of_lt_of_le (Nat.succ_pos _) hlen
      rxq := Nat.zero_le _
      win := fun q => by cases q <;> exact Nat.zero_le _
      img := rfl
      imgInside := by simp
      fbuf := by simp
      header := by simp }

theorem stateAfterInit_inv (s : State) (h : s.Inv) : (stateAfterInit s).Inv := by
  obtain ⟨f, o, e⟩ := stateAfterInit_only s
  rw [e]
  exact (resetState_inv s h.cfg).withFlagsAndOut _ _ _ f o

/-! ### Every operation and every step -/

/-- Every operation keeps the invariants. -/
theorem effect_inv (i : Instr) (s : State) (h : s.Inv) : (effect i s).Inv := by
  cases i with
  | nop => exact h
  | evClkRise c d => exact clkRise_inv c d s h
  | evDataChg c d => exact dataChg_inv c d s h
  | lineSample c d => exact lineSampled_inv c d s h
  | rxPush b => exact receiveByte_inv b s h
  | serPoll => exact serialPass_inv s h
  | sampleTick => exact sampleImage_inv s h
  | drain q => exact List.foldlRecOn _ _ h fun t ht r _ => drainOne_inv r t ht
  | readStatus sel => exact statusRead_inv sel s h
  | init => exact stateAfterInit_inv s h

/-- Settles O17: the invariants do not look at the port, and every operation and every illegal word keeps
them. -/
theorem everyStepKeepsTheStateInvariants : Obligations.EveryStepKeepsTheStateInvariants := by
  unfold Obligations.EveryStepKeepsTheStateInvariants
  intro s t h hstep
  have hfetch : ∀ rest, State.Inv { s with port := rest, stepIndex := s.stepIndex + 1 } :=
    fun _ => { h with }
  rcases step_cases s t hstep with ⟨-, rfl⟩ | ⟨-, rest, -, ⟨i, -, rfl⟩ | ⟨w, rfl⟩⟩
  · exact h
  · exact effect_inv i _ (hfetch rest)
  · exact (hfetch rest).withFlagsAndOut _ _ _ _ _

/-- The configuration after reset is in range, whatever the OPEN parameters are. -/
theorem atReset_wf : Config.atReset.wf = true := by
  have hmin : ∀ q, Config.atReset.min.get q ≤ Config.atReset.max.get q := by
    intro q
    cases q <;> exact le_add_of_nonneg_right (NNRat.cast_nonneg _)
  have hsrc : ∀ q, (Config.atReset.src.get q).wf Config.atReset = true := by
    intro q
    cases q with
    | temperature => exact decide_eq_true Config.openTempIdx.isLt
    | humidity => exact decide_eq_true Config.openHumIdx.isLt
    | gas => rfl
  refine (Config.wf_iff _).2 ⟨?_, ?_, ?_, ?_, ?_, ?_, ?_, ?_, ?_, ?_, ?_, hsrc, hmin⟩ <;>
    simp [Config.atReset, Config.defaults, Config.hdrLen]

/-- Settles O18: power-on is ResetState under a configuration in range. -/
theorem resetHasTheStateInvariants : Obligations.ResetHasTheStateInvariants :=
  resetState_inv State.reset atReset_wf

end Sys2Proof.Machine
end

section
/-! What READ_STATUS shows (10_state.md R49 to R58), and what each operation appends to the output stream
(R60, 60_exceptions.md R251). -/

namespace Sys2Proof.Machine

open Sys2Proof

/-! ### The status registers (10_state.md R49 to R58) -/

/-- A selector names a status register exactly when it is assigned. -/
theorem statusReg_isSome (sel : BitVec 4) (s : State) :
    (statusReg sel s).isSome = selectorAssigned sel := by
  have hlt : sel.toNat < 16 := sel.isLt
  unfold statusReg selectorAssigned
  interval_cases sel.toNat <;> rfl

/-- The word of READ_STATUS carries the selector in its low bits. -/
theorem encode_readStatus_toNat (sel : BitVec 4) :
    (encode (.readStatus sel)).toNat = 0x8000 + sel.toNat := by
  revert sel
  decide

/-- Settles O55: a reserved selector has no register. -/
theorem readStatusOfAReservedSelectorIsIllegal :
    Obligations.ReadStatusOfAReservedSelectorIsIllegal := by
  unfold Obligations.ReadStatusOfAReservedSelectorIsIllegal
  intro sel s hsel
  have hreserved : selectorAssigned sel = false := by
    simp only [List.mem_cons, List.not_mem_nil, or_false] at hsel
    simp only [selectorAssigned, Bool.or_eq_false_iff, Bool.and_eq_false_iff, decide_eq_false_iff_not]
    omega
  rw [exec_eq_effect, effect]
  rcases statusRead_cases sel s with ⟨v, hv, -⟩ | ⟨-, e⟩
  · have hsome := statusReg_isSome sel s
    rw [hv, hreserved] at hsome
    cases hsome
  · rw [e, illegalOp, emitReport, encode_readStatus_toNat]
    rfl

/-- The number of a concatenation is that of its fields at their places. -/
theorem toNat_append_eq_add {m n : Nat} (x : BitVec m) (y : BitVec n) :
    (x ++ y).toNat = x.toNat * 2 ^ n + y.toNat := by
  rw [BitVec.toNat_append, ← Nat.shiftLeft_add_eq_or_of_lt y.isLt, Nat.shiftLeft_eq]

/-- A register that is the number `n` below 2^16 is what READ_STATUS emits. -/
theorem exec_readStatus_of_toNat (sel : BitVec 4) (s : State) (v : Word) (n : Nat)
    (hreg : statusReg sel s = some v) (hv : v.toNat = n) :
    n < 65536 ∧
      exec (.readStatus sel) s = .next { s with out := s.out ++ [.result (BitVec.ofNat 16 n)] } := by
  subst hv
  refine ⟨v.isLt, ?_⟩
  rw [exec_eq_effect, effect, statusRead, hreg, BitVec.ofNat_toNat, BitVec.setWidth_eq]
  rfl

/-- The number of a register that shows a count not over 65535. -/
theorem toNat_ofNat_of_le {n cap : Nat} (h : n ≤ cap) (hcap : cap ≤ 65535) :
    (BitVec.ofNat 16 n).toNat = n := by
  rw [BitVec.toNat_ofNat, Nat.mod_eq_of_lt (by omega)]

/-- Settles O54, register by register: each is its fields at their places, and the counts are within the
capacities. -/
theorem readStatusEmitsTheRegister : Obligations.ReadStatusEmitsTheRegister := by
  unfold Obligations.ReadStatusEmitsTheRegister
  intro s h
  obtain ⟨-, -, -, -, -, -, hrx, -, -, -, hw, -⟩ := (Config.wf_iff s.cfg).1 h.cfg
  simp only [List.forall_mem_cons, List.not_mem_nil, false_implies, implies_true, and_true]
  refine ⟨exec_readStatus_of_toNat 0#4 s (dstat s) _ rfl ?_,
    exec_readStatus_of_toNat 1#4 s (dptr s) _ rfl ?_,
    exec_readStatus_of_toNat 2#4 s (daddr s) _ rfl ?_,
    exec_readStatus_of_toNat 3#4 s (sstat s) _ rfl ?_,
    exec_readStatus_of_toNat 4#4 s (rxcnt s) _ rfl (toNat_ofNat_of_le h.rxq hrx),
    exec_readStatus_of_toNat 5#4 s (flagsRegister s) _ rfl ?_,
    exec_readStatus_of_toNat 6#4 s (festat s) _ rfl ?_,
    exec_readStatus_of_toNat 8#4 s (wcnt .temperature s) _ rfl (toNat_ofNat_of_le (h.win _) hw),
    exec_readStatus_of_toNat 9#4 s (wcnt .humidity s) _ rfl (toNat_ofNat_of_le (h.win _) hw),
    exec_readStatus_of_toNat 10#4 s (wcnt .gas s) _ rfl (toNat_ofNat_of_le (h.win _) hw)⟩ <;>
  simp only [dstat, dptr, daddr, sstat, flagsRegister, festat, toNat_append_eq_add,
    BitVec.toNat_ofBool, BitVec.toNat_ofNat] <;>
  omega

/-! ### The output stream -/

/-- `t` has the output stream of `s` followed by events that all satisfy `P`. -/
def Emits (P : Event → Prop) (s t : State) : Prop :=
  ∃ events, t.out = s.out ++ events ∧ ∀ e ∈ events, P e

section
variable {P : Event → Prop}

theorem Emits.of_out_eq {s t : State} (h : t.out = s.out) : Emits P s t := ⟨[], by simp [h], by simp⟩

theorem Emits.refl (s : State) : Emits P s s := .of_out_eq rfl

theorem Emits.one {s t : State} (e : Event) (h : t.out = s.out ++ [e]) (he : P e) : Emits P s t :=
  ⟨[e], h, by simpa using he⟩

theorem Emits.trans {s t u : State} (h : Emits P s t) (h' : Emits P t u) : Emits P s u := by
  obtain ⟨es, hes, hP⟩ := h
  obtain ⟨es', hes', hP'⟩ := h'
  refine ⟨es ++ es', by rw [hes', hes, List.append_assoc], fun e he => ?_⟩
  rcases List.mem_append.1 he with he | he
  · exact hP e he
  · exact hP' e he

theorem Emits.foldl {α : Type} (g : State → α → State) (h : ∀ a s, Emits P s (g s a)) (as : List α)
    (s : State) : Emits P s (as.foldl g s) :=
  List.foldlRecOn _ _ (.refl s) fun t ht a _ => ht.trans (h a t)

theorem winAppend_emits (q : Quantity) (v : RawSample) (s : State)
    (hovf : P (.report .windowOverflow .warning [q.index])) : Emits P s (winAppend q v s) := by
  rcases winAppend_cases q v s with ⟨-, e⟩ | ⟨-, e⟩ <;> rw [e]
  · exact .of_out_eq rfl
  · exact .one _ rfl hovf

theorem appendImageSample_emits (q : Quantity) (s : State)
    (hovf : P (.report .windowOverflow .warning [q.index])) :
    Emits P s (appendImageSample q s) := by
  unfold appendImageSample
  cases s.cfg.src.get q with
  | twi i => exact winAppend_emits q _ s hovf
  | ser o => exact .refl s
  | none => exact .refl s

theorem sampleImage_emits (s : State)
    (hovf : ∀ q : Quantity, P (.report .windowOverflow .warning [q.index])) :
    Emits P s (sampleImage s) := by
  unfold sampleImage
  split
  · exact .foldl _ (fun q t => appendImageSample_emits q t (hovf q)) _ s
  · exact .refl s

theorem appendFrameSample_emits (q : Quantity) (s : State)
    (hovf : P (.report .windowOverflow .warning [q.index])) :
    Emits P s (appendFrameSample q s) := by
  unfold appendFrameSample
  cases s.cfg.src.get q with
  | ser o => exact winAppend_emits q _ s hovf
  | twi i => exact .refl s
  | none => exact .refl s

theorem drainOne_emits (q : Quantity) (s : State) (hpub : ∀ f, P (.publish q f))
    (hempty : P (.report .aggNoData .warning [q.index]))
    (hrange : ∀ v, P (.report .aggOutOfRange .warning [q.index, v])) :
    Emits P s (drainOne q s) := by
  unfold drainOne publishChecked
  split
  · exact .one _ rfl hempty
  · dsimp only
    split
    · exact .one _ rfl (hpub _)
    · exact .one _ rfl (hrange _)

theorem ackSlot_emits (d : Bool) (s : State)
    (haddr : ∀ v, P (.report .twiAddrNack .diagnostic [v]))
    (hptr : ∀ v, P (.report .twiPtrNack .diagnostic [v])) : Emits P s (ackSlot d s) := by
  unfold ackSlot ackAddress ackPointer ackData
  split
  · cases d
    · exact .of_out_eq rfl
    · exact .one _ rfl (haddr _)
  · split
    · cases d
      · exact .of_out_eq rfl
      · exact .one _ rfl (hptr _)
    · cases d <;> exact .of_out_eq rfl

theorem clkRise_emits (c d : Bool) (s : State)
    (haddr : ∀ v, P (.report .twiAddrNack .diagnostic [v]))
    (hptr : ∀ v, P (.report .twiPtrNack .diagnostic [v])) : Emits P s (clkRise c d s) := by
  rcases clkRise_cases c d s with ⟨-, e⟩ | ⟨-, -, e⟩ | ⟨-, -, e⟩ <;> rw [e]
  · exact .refl s
  · exact .of_out_eq rfl
  · exact ackSlot_emits d s haddr hptr

theorem dataChg_emits (c d : Bool) (s : State) : Emits P s (dataChg c d s) := by
  obtain ⟨_, _, _, _, e⟩ := dataChg_only c d s
  rw [e]
  exact .of_out_eq rfl

theorem lineSampled_emits (c d : Bool) (s : State)
    (haddr : ∀ v, P (.report .twiAddrNack .diagnostic [v]))
    (hptr : ∀ v, P (.report .twiPtrNack .diagnostic [v])) : Emits P s (lineSampled c d s) :=
  lineSampled_induction (Emits P s) c d s (.refl s)
    (fun hi t ht => ht.trans (dataChg_emits hi d t))
    (fun t ht => ht.trans (clkRise_emits true d t haddr hptr))
    fun _ ht => ht.trans (.of_out_eq rfl)

theorem receiveByte_emits (b : Byte) (s : State)
    (hovf : P (.report .rxOverflow .warning [b.toNat])) : Emits P s (receiveByte b s) := by
  unfold receiveByte
  split
  · split
    · exact .of_out_eq rfl
    · exact .one _ rfl hovf
  · exact .refl s

theorem frameDone_emits (s : State)
    (hsum : ∀ v w, P (.report .serChecksumMismatch .diagnostic [v, w]))
    (hovf : ∀ q : Quantity, P (.report .windowOverflow .warning [q.index])) :
    Emits P s (frameDone s) := by
  unfold frameDone
  dsimp only
  split
  · exact (Emits.foldl _ (fun q t => appendFrameSample_emits q t (hovf q)) Quantity.all s).trans
      (.of_out_eq rfl)
  · exact .one _ rfl (hsum _ _)

theorem syncByte_emits (b : Byte) (s : State)
    (hhdr : ∀ v w, P (.report .serHdrMismatch .diagnostic [v, w]))
    (hsum : ∀ v w, P (.report .serChecksumMismatch .diagnostic [v, w]))
    (hovf : ∀ q : Quantity, P (.report .windowOverflow .warning [q.index])) :
    Emits P s (syncByte b s) := by
  rcases syncByte_branches b s with ⟨hk, hb⟩ | ⟨hk, hb⟩ | ⟨hk, hf⟩ | ⟨hk, hf⟩
  · rw [syncByte_of_header hk hb]
    exact .of_out_eq rfl
  · rw [syncByte_of_mismatch hk hb, headerMismatch_eq]
    by_cases hp : 0 < s.fpos.toNat
    · exact .one _ (if_pos hp) (hhdr _ _)
    · exact .of_out_eq (if_neg hp)
  · rw [syncByte_of_body hk hf]
    exact .of_out_eq rfl
  · rw [syncByte_of_last hk hf]
    exact Emits.trans (.of_out_eq rfl) (frameDone_emits _ hsum hovf)

theorem serialPass_emits (s : State)
    (hhdr : ∀ v w, P (.report .serHdrMismatch .diagnostic [v, w]))
    (hsum : ∀ v w, P (.report .serChecksumMismatch .diagnostic [v, w]))
    (hovf : ∀ q : Quantity, P (.report .windowOverflow .warning [q.index])) :
    Emits P s (serialPass s) :=
  serialPass_induction (Emits P s) s (.refl s) (fun _ ht => ht.trans (.of_out_eq rfl))
    (fun _ _ _ ht => ht.trans (.of_out_eq rfl))
    fun b t ht => ht.trans (syncByte_emits b t hhdr hsum hovf)

theorem stateAfterInit_emits (s : State) (hmis : P (.report .serMisconfig .warning [])) :
    Emits P s (stateAfterInit s) := by
  unfold stateAfterInit
  split
  · exact .of_out_eq rfl
  · exact .one _ rfl hmis

end

/-- The events an operation appends fit the table of reports, and are its own to emit when it is well
formed (60_exceptions.md R251). -/
theorem effect_emits (i : Instr) (s : State) :
    Emits (fun e => reportFits e = true ∧ (i.wf = true → mayEmit i e = true)) s (effect i s) := by
  cases i with
  | nop => exact .refl s
  | evClkRise c d =>
    exact clkRise_emits c d s (fun _ => ⟨rfl, fun _ => rfl⟩) fun _ => ⟨rfl, fun _ => rfl⟩
  | evDataChg c d => exact dataChg_emits c d s
  | lineSample c d =>
    exact lineSampled_emits c d s (fun _ => ⟨rfl, fun _ => rfl⟩) fun _ => ⟨rfl, fun _ => rfl⟩
  | rxPush b => exact receiveByte_emits b s ⟨rfl, fun _ => rfl⟩
  | serPoll =>
    exact serialPass_emits s (fun _ _ => ⟨rfl, fun _ => rfl⟩) (fun _ _ => ⟨rfl, fun _ => rfl⟩)
      fun _ => ⟨rfl, fun _ => rfl⟩
  | sampleTick => exact sampleImage_emits s fun _ => ⟨rfl, fun _ => rfl⟩
  | drain q =>
    exact .foldl _ (fun r t => drainOne_emits r t (fun _ => ⟨rfl, fun _ => rfl⟩)
      ⟨rfl, fun _ => rfl⟩ fun _ => ⟨rfl, fun _ => rfl⟩) _ s
  | readStatus sel =>
    rcases statusRead_cases sel s with ⟨v, -, e⟩ | ⟨hnone, e⟩ <;> rw [effect, e]
    · exact .one _ rfl ⟨rfl, fun _ => rfl⟩
    · refine .one _ rfl ⟨rfl, fun hwf => ?_⟩
      have hsome := statusReg_isSome sel s
      rw [hnone, show selectorAssigned sel = true from hwf] at hsome
      cases hsome
  | init => exact stateAfterInit_emits s ⟨rfl, fun _ => rfl⟩

/-- Settles O15: ILLEGAL of a word reports, and every operation appends what `effect_emits` says. -/
theorem stepOnlyAppendsFittingReports : Obligations.StepOnlyAppendsFittingReports := by
  unfold Obligations.StepOnlyAppendsFittingReports
  intro s t h
  rcases step_cases s t h with ⟨-, rfl⟩ | ⟨-, rest, -, ⟨i, -, rfl⟩ | ⟨w, rfl⟩⟩
  · exact Emits.refl t
  · obtain ⟨events, hout, hfit⟩ := effect_emits i { s with port := rest, stepIndex := s.stepIndex + 1 }
    exact ⟨events, hout, fun e he => (hfit e he).1⟩
  · exact Emits.one (P := fun e => reportFits e = true) _ rfl rfl

end Sys2Proof.Machine
end

section
/-! The device address and the sticky flags are read by READ_STATUS alone (10_state.md R39, R47). -/

namespace Sys2Proof.Machine

open Sys2Proof

/-! ### What no operation but READ_STATUS reads -/

/-- The device address and the sticky flags. -/
structure Unread where
  devaddr : Byte
  rxovf : Bool
  winovf : Bool
  illegal : Bool
  misconfig : Bool

/-- The device address and the flags of a state. -/
def State.unread (s : State) : Unread := ⟨s.devaddr, s.fRxovf, s.fWinovf, s.fIllegal, s.fMisconfig⟩

/-- `s` with another device address and other flags. -/
def withUnread (u : Unread) (s : State) : State :=
  { withFlags u.rxovf u.winovf u.illegal u.misconfig s with devaddr := u.devaddr }

/-- What an operation may do to these fields: commit a device address, set flags (R39, R46). -/
structure UnreadWrite where
  commit : Option Byte := none
  rxovf : Bool := false
  winovf : Bool := false

/-- The fields after such a write. -/
def UnreadWrite.apply (w : UnreadWrite) (u : Unread) : Unread :=
  { u with
    devaddr := w.commit.getD u.devaddr
    rxovf := u.rxovf || w.rxovf
    winovf := u.winovf || w.winovf }

/-- One write after another. -/
def UnreadWrite.andThen (w w' : UnreadWrite) : UnreadWrite :=
  { commit := w'.commit.or w.commit
    rxovf := w.rxovf || w'.rxovf
    winovf := w.winovf || w'.winovf }

theorem UnreadWrite.apply_andThen (w w' : UnreadWrite) (u : Unread) :
    (w.andThen w').apply u = w'.apply (w.apply u) := by
  obtain ⟨_ | _, _, _⟩ := w'
  · simp [andThen, apply, Bool.or_assoc]
  · simp [andThen, apply, Bool.or_assoc]

/-- Nothing is written. -/
theorem UnreadWrite.apply_none (u : Unread) : UnreadWrite.apply {} u = u := by
  simp [apply]

theorem UnreadWrite.apply_commit (a : Byte) (u : Unread) :
    UnreadWrite.apply { commit := some a } u = { u with devaddr := a } := by
  simp [apply]

theorem UnreadWrite.apply_rxovf (u : Unread) :
    UnreadWrite.apply { rxovf := true } u = { u with rxovf := true } := by
  simp [apply]

theorem UnreadWrite.apply_winovf (u : Unread) :
    UnreadWrite.apply { winovf := true } u = { u with winovf := true } := by
  simp [apply]

/-- From `s`, `g` does the same whatever the device address and the flags are, and to them it does one
write, which does not depend on them. -/
def Blind (g : State → State) (s : State) : Prop :=
  ∃ w : UnreadWrite, ∀ u, g (withUnread u s) = withUnread (w.apply u) (g s)

/-- A function that does not touch these fields either. -/
theorem Blind.of_commutes {g : State → State} {s : State}
    (h : ∀ u, g (withUnread u s) = withUnread u (g s)) : Blind g s :=
  ⟨{}, fun u => by rw [UnreadWrite.apply_none, h]⟩

theorem Blind.comp {f g : State → State} {s : State} (hf : Blind f s) (hg : Blind g (f s)) :
    Blind (fun t => g (f t)) s := by
  obtain ⟨w, hw⟩ := hf
  obtain ⟨w', hw'⟩ := hg
  refine ⟨w.andThen w', fun u => ?_⟩
  dsimp only
  rw [hw, hw', UnreadWrite.apply_andThen]

theorem Blind.foldl {α : Type} (g : State → α → State) (h : ∀ a s, Blind (fun t => g t a) s)
    (as : List α) (s : State) : Blind (fun t => as.foldl g t) s := by
  induction as generalizing s with
  | nil => exact .of_commutes fun _ => rfl
  | cons a as ih => exact (h a s).comp (g := fun t => as.foldl g t) (ih (g s a))

/-- A branch on what is read. -/
theorem Blind.ite {c : State → Prop} [DecidablePred c] {f g : State → State} {s : State}
    (hc : ∀ u, c (withUnread u s) ↔ c s) (hf : c s → Blind f s) (hg : ¬c s → Blind g s) :
    Blind (fun t => if c t then f t else g t) s := by
  by_cases h : c s
  · obtain ⟨w, hw⟩ := hf h
    exact ⟨w, fun u => by simp only [hc, h, if_true, hw]⟩
  · obtain ⟨w, hw⟩ := hg h
    exact ⟨w, fun u => by simp only [hc, h, if_false, hw]⟩

section
variable {g : State → State} {s : State} {w : UnreadWrite}

/-- The device address and the flags after an operation that is blind to them. -/
theorem unread_of_blind (h : ∀ u, g (withUnread u s) = withUnread (w.apply u) (g s)) :
    (g s).unread = w.apply s.unread :=
  congrArg State.unread (h s.unread)

/-- With other flags an operation blind to them does the same but for the flags. -/
theorem withFlags_of_blind (h : ∀ u, g (withUnread u s) = withUnread (w.apply u) (g s))
    (f1 f2 f3 f4 : Bool) :
    g (withFlags f1 f2 f3 f4 s) = withFlags (f1 || w.rxovf) (f2 || w.winovf) f3 f4 (g s) := by
  have hdev : (g s).devaddr = w.commit.getD s.devaddr :=
    congrArg Unread.devaddr (unread_of_blind h)
  refine (h ⟨s.devaddr, f1, f2, f3, f4⟩).trans ?_
  simp only [withUnread, UnreadWrite.apply, ← hdev]
  rfl

/-- With another device address it does the same but for the device address. -/
theorem withDevaddr_of_blind (h : ∀ u, g (withUnread u s) = withUnread (w.apply u) (g s))
    (v : Byte) : g { s with devaddr := v } = { g s with devaddr := w.commit.getD v } := by
  have happly : w.apply { s.unread with devaddr := v } =
      { (g s).unread with devaddr := w.commit.getD v } := by
    rw [unread_of_blind h]
    rfl
  refine (h { s.unread with devaddr := v }).trans ?_
  rw [happly]
  rfl

end

/-! ### The windows -/

theorem winAppend_blind (q : Quantity) (v : RawSample) (s : State) : Blind (winAppend q v) s :=
  .ite (c := fun t => (t.win.get q).length < t.cfg.wCap) (fun _ => Iff.rfl)
    (fun _ => .of_commutes fun _ => rfl)
    fun _ => ⟨{ winovf := true }, fun u => by rw [UnreadWrite.apply_winovf]; rfl⟩

theorem appendImageSample_blind (q : Quantity) (s : State) : Blind (appendImageSample q) s := by
  by_cases h : ∃ i, s.cfg.src.get q = .twi i
  · obtain ⟨i, hsrc⟩ := h
    obtain ⟨w, hw⟩ := winAppend_blind q (imgRead16 s i) s
    refine ⟨w, fun u => ?_⟩
    rw [appendImageSample_of_twi hsrc, appendImageSample_of_twi (s := withUnread u s) hsrc, ← hw]
    rfl
  · have hsrc := not_exists.1 h
    refine .of_commutes fun u => ?_
    rw [appendImageSample_of_not_twi hsrc, appendImageSample_of_not_twi (s := withUnread u s) hsrc]

theorem appendFrameSample_blind (q : Quantity) (s : State) : Blind (appendFrameSample q) s := by
  by_cases h : ∃ o, s.cfg.src.get q = .ser o
  · obtain ⟨o, hsrc⟩ := h
    obtain ⟨w, hw⟩ := winAppend_blind q (frameField s o) s
    refine ⟨w, fun u => ?_⟩
    rw [appendFrameSample_of_ser hsrc, appendFrameSample_of_ser (s := withUnread u s) hsrc, ← hw]
    rfl
  · have hsrc := not_exists.1 h
    refine .of_commutes fun u => ?_
    rw [appendFrameSample_of_not_ser hsrc, appendFrameSample_of_not_ser (s := withUnread u s) hsrc]

theorem sampleImage_blind (s : State) : Blind sampleImage s :=
  .ite (c := fun t => t.idle = true) (fun _ => Iff.rfl)
    (fun _ => .foldl _ (fun q t => appendImageSample_blind q t) Quantity.all s)
    fun _ => .of_commutes fun _ => rfl

theorem publishChecked_blind (q : Quantity) (v : RawSample) (s : State) :
    Blind (publishChecked q v) s :=
  .ite (c := fun t => t.cfg.min.get q ≤ physicalValue t.cfg q v ∧
      physicalValue t.cfg q v ≤ t.cfg.max.get q) (fun _ => Iff.rfl)
    (fun _ => .of_commutes fun _ => rfl) fun _ => .of_commutes fun _ => rfl

theorem drainOne_blind (q : Quantity) (s : State) : Blind (drainOne q) s :=
  .ite (c := fun t => (t.win.get q).length = 0) (fun _ => Iff.rfl)
    (fun _ => .of_commutes fun _ => rfl) fun _ => by
      obtain ⟨w, hw⟩ := publishChecked_blind q (median (s.win.get q)) s
      exact ⟨w, fun u => congrArg (winClear q) (hw u)⟩

/-! ### The serial path -/

theorem receiveByte_blind (b : Byte) (s : State) : Blind (receiveByte b) s :=
  .ite (c := fun t => t.cfg.serAttached = true) (fun _ => Iff.rfl)
    (fun _ => .ite (c := fun t => fifoCount t < t.cfg.rxCap) (fun _ => Iff.rfl)
      (fun _ => .of_commutes fun _ => rfl)
      fun _ => ⟨{ rxovf := true }, fun u => by rw [UnreadWrite.apply_rxovf]; rfl⟩)
    fun _ => .of_commutes fun _ => rfl

theorem frameDone_blind (s : State) : Blind frameDone s :=
  Blind.comp (f := fun t =>
      if fbufRead t (t.cfg.frameLen - 1) = checksum t.cfg t.fbuf then
        Quantity.all.foldl (fun t q => appendFrameSample q t) t
      else emitReport .serChecksumMismatch .diagnostic
        [(fbufRead t (t.cfg.frameLen - 1)).toNat, (checksum t.cfg t.fbuf).toNat] t)
    (g := fun t => { t with fpos := 0#4 })
    (.ite (c := fun t => fbufRead t (t.cfg.frameLen - 1) = checksum t.cfg t.fbuf) (fun _ => Iff.rfl)
      (fun _ => .foldl _ (fun q t => appendFrameSample_blind q t) Quantity.all s)
      fun _ => .of_commutes fun _ => rfl)
    (.of_commutes fun _ => rfl)

theorem headerMismatch_blind (b : Byte) (s : State) : Blind (headerMismatch b) s :=
  .of_commutes fun u => by
    rw [headerMismatch_eq, headerMismatch_eq]
    rfl

theorem syncByte_blind (b : Byte) (s : State) : Blind (syncByte b) s :=
  .ite (c := fun t => t.fpos.toNat < t.cfg.hdrLen) (fun _ => Iff.rfl)
    (fun _ => .ite (c := fun t => t.cfg.hdr[t.fpos.toNat]? = some b) (fun _ => Iff.rfl)
      (fun _ => .of_commutes fun _ => rfl) fun _ => headerMismatch_blind b s)
    fun _ => .ite (c := fun t => t.fpos.toNat + 1 < t.cfg.frameLen) (fun _ => Iff.rfl)
      (fun _ => .of_commutes fun _ => rfl)
      fun _ => .comp (f := fun t => fbufWrite t.fpos.toNat b t) (.of_commutes fun _ => rfl)
        (frameDone_blind _)

theorem skipBacklog_blind (s : State) : Blind skipBacklog s := by
  rw [funext skipBacklog_eq]
  exact .ite (c := fun t => t.cfg.backlogKeep < t.rxq.length) (fun _ => Iff.rfl)
    (fun _ => .of_commutes fun _ => rfl) fun _ => .of_commutes fun _ => rfl

theorem serialPass_blind (s : State) : Blind serialPass s := by
  have hbytes : ∀ t : State,
      Blind (fun t => t.rxq.foldl (fun t b => syncByte b t) { t with rxq := [] }) t := by
    intro t
    obtain ⟨w, hw⟩ := Blind.foldl (fun t b => syncByte b t) syncByte_blind t.rxq { t with rxq := [] }
    exact ⟨w, hw⟩
  rw [funext serialPass_eq]
  exact .ite (c := fun t => t.cfg.serAttached = true) (fun _ => Iff.rfl)
    (fun _ => (skipBacklog_blind s).comp (hbytes _)) fun _ => .of_commutes fun _ => rfl

/-! ### The decoder -/

theorem ackAddress_blind (d : Bool) (s : State) : Blind (ackAddress d) s := by
  cases d
  · exact ⟨{ commit := some s.shreg }, fun u => by rw [UnreadWrite.apply_commit]; rfl⟩
  · exact .of_commutes fun _ => rfl

theorem ackSlot_blind (d : Bool) (s : State) : Blind (ackSlot d) s :=
  .comp (g := ackEnd)
    (.ite (c := fun t => t.bytecnt = 0#8) (fun _ => Iff.rfl) (fun _ => ackAddress_blind d s)
      fun _ => .ite (c := fun t => t.bytecnt = 1#8 ∧ t.dir = false) (fun _ => Iff.rfl)
        (fun _ => .of_commutes fun _ => by cases d <;> rfl)
        fun _ => .of_commutes fun _ => by cases d <;> rfl)
    (.of_commutes fun _ => rfl)

theorem clkRise_blind (c d : Bool) (s : State) : Blind (clkRise c d) s :=
  .ite (c := fun t => t.idle = true) (fun _ => Iff.rfl) (fun _ => .of_commutes fun _ => rfl)
    fun _ => .ite (c := fun t => t.bitcnt.toNat < 8) (fun _ => Iff.rfl)
      (fun _ => .of_commutes fun _ => rfl) fun _ => ackSlot_blind d s

theorem dataChg_blind (c d : Bool) (s : State) : Blind (dataChg c d) s :=
  .of_commutes fun _ => by cases c <;> cases d <;> rfl

theorem lineSampled_blind (c d : Bool) (s : State) : Blind (lineSampled c d) s := by
  have hchanged : Blind (fun t => if d != t.feSda then dataChg (t.feScl && c) d t else t) s :=
    .ite (c := fun t => (d != t.feSda) = true) (fun _ => Iff.rfl)
      (fun _ => dataChg_blind (s.feScl && c) d s) fun _ => .of_commutes fun _ => rfl
  exact .comp (g := fun t => { t with feScl := c, feSda := d })
    (.ite (c := fun t => (!t.feScl && c) = true) (fun _ => Iff.rfl)
      (fun _ => hchanged.comp (clkRise_blind true d _)) fun _ => hchanged)
    (.of_commutes fun _ => rfl)

/-! ### Every operation -/

/-- Every operation but READ_STATUS and INIT is blind to the device address and the flags. -/
theorem effect_blind (i : Instr) (s : State) (hr : ∀ sel, i ≠ .readStatus sel) (hi : i ≠ .init) :
    Blind (effect i) s := by
  cases i with
  | nop => exact .of_commutes fun _ => rfl
  | evClkRise c d => exact clkRise_blind c d s
  | evDataChg c d => exact dataChg_blind c d s
  | lineSample c d => exact lineSampled_blind c d s
  | rxPush b => exact receiveByte_blind b s
  | serPoll => exact serialPass_blind s
  | sampleTick => exact sampleImage_blind s
  | drain q => exact .foldl _ (fun r t => drainOne_blind r t) (drainTargets q) s
  | readStatus sel => exact absurd rfl (hr sel)
  | init => exact absurd rfl hi

/-- Settles O23: what an operation does to a flag is to set it or not. -/
theorem onlyInitClearsAStickyFlag : Obligations.OnlyInitClearsAStickyFlag := by
  unfold Obligations.OnlyInitClearsAStickyFlag
  intro i s t hi h
  obtain rfl := (exec_eq_next_iff i s t).1 h
  by_cases hr : ∀ sel, i ≠ .readStatus sel
  · obtain ⟨w, hw⟩ := effect_blind i s hr hi
    have hunread := unread_of_blind hw
    simp only [State.unread, UnreadWrite.apply, Unread.mk.injEq] at hunread
    obtain ⟨-, hrx, hwin, hill, hmis⟩ := hunread
    rw [hrx, hwin, hill, hmis]
    exact ⟨Bool.or_inl, Bool.or_inl, id, id⟩
  · simp only [ne_eq, not_forall, not_not] at hr
    obtain ⟨sel, rfl⟩ := hr
    rcases statusRead_cases sel s with ⟨v, -, e⟩ | ⟨-, e⟩ <;> simp [effect, e]

/-- READ_STATUS shows the flags for selector 5 only. -/
theorem statusReg_withFlags (sel : BitVec 4) (f1 f2 f3 f4 : Bool) (s : State) (h : sel ≠ 5#4) :
    statusReg sel (withFlags f1 f2 f3 f4 s) = statusReg sel s := by
  have h5 : sel.toNat ≠ 5 := fun e => h (BitVec.eq_of_toNat_eq e)
  unfold statusReg
  generalize sel.toNat = n at h5
  split
  case h_6 => exact absurd rfl h5
  all_goals rfl

/-- READ_STATUS shows the device address for selector 2 only. -/
theorem statusReg_withDevaddr (sel : BitVec 4) (v : Byte) (s : State) (h : sel ≠ 2#4) :
    statusReg sel { s with devaddr := v } = statusReg sel s := by
  have h2 : sel.toNat ≠ 2 := fun e => h (BitVec.eq_of_toNat_eq e)
  unfold statusReg
  generalize sel.toNat = n at h2
  split
  case h_3 => exact absurd rfl h2
  all_goals rfl

/-- Settles O24: READ_STATUS shows the flags for selector 5 only, INIT forgets them, and every other
operation is blind to them. -/
theorem stickyFlagsChangeNoBehaviour : Obligations.StickyFlagsChangeNoBehaviour := by
  unfold Obligations.StickyFlagsChangeNoBehaviour
  intro i s t f1 f2 f3 f4 h5 h
  obtain rfl := (exec_eq_next_iff i s t).1 h
  simp only [exec_eq_next_iff]
  by_cases hr : ∃ sel, i = .readStatus sel
  · obtain ⟨sel, rfl⟩ := hr
    have hreg := statusReg_withFlags sel f1 f2 f3 f4 s (by simpa using h5)
    simp only [effect, statusRead, hreg]
    cases statusReg sel s with
    | some v => exact ⟨f1, f2, f3, f4, rfl⟩
    | none => exact ⟨f1, f2, true, f4, rfl⟩
  by_cases hi : i = .init
  · subst hi
    exact ⟨_, _, _, _, (rfl : _ = stateAfterInit s)⟩
  obtain ⟨w, hw⟩ := effect_blind i s (not_exists.1 hr) hi
  exact ⟨_, _, _, _, withFlags_of_blind hw f1 f2 f3 f4⟩

/-- Settles O25: READ_STATUS shows the device address for selector 2 only, INIT forgets it, and every
other operation is blind to it. -/
theorem onlyReadStatusReadsTheDeviceAddress : Obligations.OnlyReadStatusReadsTheDeviceAddress := by
  unfold Obligations.OnlyReadStatusReadsTheDeviceAddress
  intro i s t v h2 h
  obtain rfl := (exec_eq_next_iff i s t).1 h
  simp only [exec_eq_next_iff]
  by_cases hr : ∃ sel, i = .readStatus sel
  · obtain ⟨sel, rfl⟩ := hr
    have hreg := statusReg_withDevaddr sel v s (by simpa using h2)
    simp only [effect, statusRead, hreg]
    cases statusReg sel s <;> exact ⟨v, rfl⟩
  by_cases hi : i = .init
  · subst hi
    exact ⟨_, (rfl : _ = stateAfterInit s)⟩
  obtain ⟨w, hw⟩ := effect_blind i s (not_exists.1 hr) hi
  exact ⟨_, withDevaddr_of_blind hw v⟩

end Sys2Proof.Machine
end

section
/-! The bytes of the frame buffer at or beyond `fpos` are never observed (10_state.md R43,
93_implementation_defined.md I23). -/

namespace Sys2Proof.Machine

open Sys2Proof

/-! ### Operations outside the synchronizer do not look at the frame buffer -/

/-- `s` with another frame buffer. -/
def withFbuf (buf : List Byte) (s : State) : State := { s with fbuf := buf }

theorem winAppend_withFbuf (q : Quantity) (v : RawSample) (buf : List Byte) (s : State) :
    winAppend q v (withFbuf buf s) = withFbuf buf (winAppend q v s) := by
  unfold winAppend
  rw [apply_ite (withFbuf buf)]
  rfl

theorem appendImageSample_withFbuf (q : Quantity) (buf : List Byte) (s : State) :
    appendImageSample q (withFbuf buf s) = withFbuf buf (appendImageSample q s) := by
  by_cases h : ∃ i, s.cfg.src.get q = .twi i
  · obtain ⟨i, hsrc⟩ := h
    rw [appendImageSample_of_twi hsrc, appendImageSample_of_twi (s := withFbuf buf s) hsrc,
      winAppend_withFbuf]
    rfl
  · have hsrc := not_exists.1 h
    rw [appendImageSample_of_not_twi hsrc, appendImageSample_of_not_twi (s := withFbuf buf s) hsrc]

theorem sampleImage_withFbuf (buf : List Byte) (s : State) :
    sampleImage (withFbuf buf s) = withFbuf buf (sampleImage s) := by
  unfold sampleImage
  rw [List.foldl_hom (withFbuf buf) fun t q => appendImageSample_withFbuf q buf t,
    apply_ite (withFbuf buf)]
  rfl

theorem drainOne_withFbuf (q : Quantity) (buf : List Byte) (s : State) :
    drainOne q (withFbuf buf s) = withFbuf buf (drainOne q s) := by
  unfold drainOne publishChecked
  dsimp only
  rw [apply_ite (withFbuf buf), apply_ite (winClear q), apply_ite (winClear q),
    apply_ite (withFbuf buf)]
  rfl

theorem receiveByte_withFbuf (b : Byte) (buf : List Byte) (s : State) :
    receiveByte b (withFbuf buf s) = withFbuf buf (receiveByte b s) := by
  unfold receiveByte
  rw [apply_ite (withFbuf buf), apply_ite (withFbuf buf)]
  rfl

theorem ackSlot_withFbuf (d : Bool) (buf : List Byte) (s : State) :
    ackSlot d (withFbuf buf s) = withFbuf buf (ackSlot d s) := by
  unfold ackSlot
  rw [apply_ite ackEnd, apply_ite ackEnd, apply_ite ackEnd, apply_ite ackEnd,
    apply_ite (withFbuf buf), apply_ite (withFbuf buf)]
  cases d <;> rfl

theorem clkRise_withFbuf (c d : Bool) (buf : List Byte) (s : State) :
    clkRise c d (withFbuf buf s) = withFbuf buf (clkRise c d s) := by
  unfold clkRise
  rw [ackSlot_withFbuf, apply_ite (withFbuf buf), apply_ite (withFbuf buf)]
  rfl

theorem dataChg_withFbuf (c d : Bool) (buf : List Byte) (s : State) :
    dataChg c d (withFbuf buf s) = withFbuf buf (dataChg c d s) := by
  cases c <;> cases d <;> rfl

theorem lineSampled_withFbuf (c d : Bool) (buf : List Byte) (s : State) :
    lineSampled c d (withFbuf buf s) = withFbuf buf (lineSampled c d s) := by
  have hchanged :
      (if d != s.feSda then dataChg (s.feScl && c) d (withFbuf buf s) else withFbuf buf s) =
      withFbuf buf (if d != s.feSda then dataChg (s.feScl && c) d s else s) := by
    rw [dataChg_withFbuf, apply_ite (withFbuf buf)]
  unfold lineSampled
  dsimp only
  rw [show (withFbuf buf s).feSda = s.feSda from rfl, show (withFbuf buf s).feScl = s.feScl from rfl,
    hchanged, clkRise_withFbuf, ← apply_ite (withFbuf buf)]
  rfl

theorem statusRead_withFbuf (sel : BitVec 4) (buf : List Byte) (s : State) :
    statusRead sel (withFbuf buf s) = withFbuf buf (statusRead sel s) := by
  unfold statusRead
  rw [show statusReg sel (withFbuf buf s) = statusReg sel s from rfl]
  cases statusReg sel s <;> rfl

/-- With another frame buffer an operation outside the synchronizer does the same. -/
theorem effect_withFbuf (i : Instr) (buf : List Byte) (s : State) (hpoll : i ≠ .serPoll)
    (hinit : i ≠ .init) : effect i (withFbuf buf s) = withFbuf buf (effect i s) := by
  cases i with
  | nop => rfl
  | evClkRise c d => exact clkRise_withFbuf c d buf s
  | evDataChg c d => exact dataChg_withFbuf c d buf s
  | lineSample c d => exact lineSampled_withFbuf c d buf s
  | rxPush b => exact receiveByte_withFbuf b buf s
  | serPoll => exact absurd rfl hpoll
  | sampleTick => exact sampleImage_withFbuf buf s
  | drain q => exact List.foldl_hom (withFbuf buf) fun t r => drainOne_withFbuf r buf t
  | readStatus sel => exact statusRead_withFbuf sel buf s
  | init => exact absurd rfl hinit

/-- An operation outside the synchronizer leaves the candidate frame. -/
theorem effect_keeps_frame (i : Instr) (s : State) (hpoll : i ≠ .serPoll) (hinit : i ≠ .init) :
    (effect i s).fpos = s.fpos ∧ (effect i s).fbuf = s.fbuf := by
  by_cases hpush : ∃ b, i = .rxPush b
  · obtain ⟨b, rfl⟩ := hpush
    obtain ⟨_, _, _, e⟩ := receiveByte_only b s
    rw [effect, e]
    exact ⟨rfl, rfl⟩
  · obtain ⟨-, hframe⟩ := Prod.mk.inj (onlySerialOperationsWriteTheSerialPath i s _
      (not_exists.1 hpush) hpoll hinit (exec_eq_effect i s))
    exact Prod.mk.inj hframe

/-! ### The synchronizer -/

/-- `t` is `s` but for bytes of the frame buffer at or beyond `fpos`. -/
def AgreesToFpos (s t : State) : Prop :=
  ∃ buf, t = withFbuf buf s ∧ buf.length = s.fbuf.length ∧
    buf.take s.fpos.toNat = s.fbuf.take s.fpos.toNat

/-- Lists that agree on their first k elements agree on one more after the same byte is written at k of
both. -/
theorem take_set_succ_congr {α : Type} (l m : List α) (k : Nat) (b : α) (hlen : l.length = m.length)
    (hk : k < m.length) (h : l.take k = m.take k) :
    (l.set k b).take (k + 1) = (m.set k b).take (k + 1) :=
  take_set_succ l (m.set k b) k b (hlen ▸ hk) (List.getElem?_set_self hk)
    (h.trans (List.take_set_of_le (Nat.le_refl k)).symm)

/-- A byte stored at `fpos` leaves the buffers equal up to the `fpos` after it. -/
theorem AgreesToFpos.store {s : State} (h : s.Inv) (b : Byte) (buf : List Byte)
    (hlen : buf.length = s.fbuf.length) (hbuf : buf.take s.fpos.toNat = s.fbuf.take s.fpos.toNat)
    (hk : s.fpos.toNat + 1 < s.cfg.frameLen) :
    AgreesToFpos { s with fbuf := s.fbuf.set s.fpos.toNat b, fpos := s.fpos + 1#4 }
      { s with fbuf := buf.set s.fpos.toNat b, fpos := s.fpos + 1#4 } := by
  obtain ⟨-, -, -, -, h16, -⟩ := (Config.wf_iff s.cfg).1 h.cfg
  have hfbuf := h.fbuf
  have hfpos : (s.fpos + 1#4).toNat = s.fpos.toNat + 1 := by
    rw [fpos_add_one, BitVec.toNat_ofNat, Nat.mod_eq_of_lt (by omega)]
  refine ⟨_, rfl, by simp [hlen], ?_⟩
  dsimp only
  rw [hfpos]
  exact take_set_succ_congr buf s.fbuf _ b hlen (by omega) hbuf

theorem headerMismatch_agrees (b : Byte) (s t : State) (h : s.Inv) (ht : AgreesToFpos s t) :
    AgreesToFpos (headerMismatch b s) (headerMismatch b t) := by
  obtain ⟨buf, rfl, hlen, -⟩ := ht
  obtain ⟨-, -, hhdr, hfl, -⟩ := (Config.wf_iff s.cfg).1 h.cfg
  have hfbuf := h.fbuf
  by_cases hr : s.cfg.hdrRescan = true ∧ s.cfg.hdr[0]? = some b
  · rw [headerMismatch_of_rescan hr, headerMismatch_of_rescan (s := withFbuf buf s) hr]
    exact ⟨buf.set 0 b, rfl, by simp [hlen], take_set_succ_congr buf s.fbuf 0 b hlen (by omega) rfl⟩
  · rw [headerMismatch_of_restart hr, headerMismatch_of_restart (s := withFbuf buf s) hr]
    exact ⟨buf, rfl, hlen, rfl⟩

theorem syncByte_agrees (b : Byte) (s t : State) (h : s.Inv) (ht : AgreesToFpos s t) :
    AgreesToFpos (syncByte b s) (syncByte b t) := by
  obtain ⟨buf, rfl, hlen, hbuf⟩ := ht
  obtain ⟨-, -, -, hfl, -⟩ := (Config.wf_iff s.cfg).1 h.cfg
  rcases syncByte_branches b s with ⟨hk, hb⟩ | ⟨hk, hb⟩ | ⟨hk, hf⟩ | ⟨hk, hf⟩
  · rw [syncByte_of_header hk hb, syncByte_of_header (s := withFbuf buf s) hk hb]
    exact .store h b buf hlen hbuf (by omega)
  · rw [syncByte_of_mismatch hk hb, syncByte_of_mismatch (s := withFbuf buf s) hk hb]
    exact headerMismatch_agrees b s _ h ⟨buf, rfl, hlen, hbuf⟩
  · rw [syncByte_of_body hk hf, syncByte_of_body (s := withFbuf buf s) hk hf]
    exact .store h b buf hlen hbuf hf
  · have hfbuf := h.fbuf
    have hfpos := h.fpos
    have hsame : buf.set s.fpos.toNat b = s.fbuf.set s.fpos.toNat b := by
      have := take_set_succ_congr buf s.fbuf s.fpos.toNat b hlen (by omega) hbuf
      rwa [List.take_of_length_le (by simp; omega), List.take_of_length_le (by simp; omega)] at this
    rw [syncByte_of_last hk hf, syncByte_of_last (s := withFbuf buf s) hk hf]
    refine ⟨_, ?_, rfl, rfl⟩
    show frameDone { s with fbuf := buf.set s.fpos.toNat b } = _
    rw [hsame]
    rfl

theorem foldl_syncByte_agrees (bytes : List Byte) (s t : State) (h : s.Inv) (ht : AgreesToFpos s t) :
    AgreesToFpos (bytes.foldl (fun t b => syncByte b t) s)
      (bytes.foldl (fun t b => syncByte b t) t) := by
  induction bytes generalizing s t with
  | nil => exact ht
  | cons b rest ih => exact ih _ _ (syncByte_inv b s h) (syncByte_agrees b s t h ht)

theorem skipBacklog_agrees (s t : State) (ht : AgreesToFpos s t) :
    AgreesToFpos (skipBacklog s) (skipBacklog t) := by
  obtain ⟨buf, rfl, hlen, hbuf⟩ := ht
  rw [skipBacklog_eq, skipBacklog_eq]
  by_cases hmany : s.cfg.backlogKeep < s.rxq.length
  · have hmany' : (withFbuf buf s).cfg.backlogKeep < (withFbuf buf s).rxq.length := hmany
    rw [if_pos hmany, if_pos hmany']
    exact ⟨buf, rfl, hlen, rfl⟩
  · have hmany' : ¬(withFbuf buf s).cfg.backlogKeep < (withFbuf buf s).rxq.length := hmany
    rw [if_neg hmany, if_neg hmany']
    exact ⟨buf, rfl, hlen, hbuf⟩

theorem serialPass_agrees (s t : State) (h : s.Inv) (ht : AgreesToFpos s t) :
    AgreesToFpos (serialPass s) (serialPass t) := by
  have hcfg : t.cfg = s.cfg := by
    obtain ⟨_, rfl, -, -⟩ := ht
    rfl
  rw [serialPass_eq, serialPass_eq, hcfg]
  split
  · obtain ⟨buf, e, hlen, hbuf⟩ := skipBacklog_agrees s t ht
    rw [e]
    exact foldl_syncByte_agrees _ _ _ { skipBacklog_inv s h with rxq := Nat.zero_le _ }
      ⟨buf, rfl, hlen, hbuf⟩
  · exact ht

/-- Settles O26: SER_POLL keeps the agreement byte by byte, INIT forgets the buffer, and no other
operation looks at it or writes `fpos`. -/
theorem frameBufferBeyondFposIsNotObserved : Obligations.FrameBufferBeyondFposIsNotObserved := by
  unfold Obligations.FrameBufferBeyondFposIsNotObserved
  intro i s t buf h hlen hbuf hexec
  obtain rfl := (exec_eq_next_iff i s t).1 hexec
  simp only [exec_eq_next_iff]
  have hagrees : AgreesToFpos (effect i s) (effect i (withFbuf buf s)) := by
    by_cases hpoll : i = .serPoll
    · subst hpoll
      exact serialPass_agrees s _ h ⟨buf, rfl, hlen, hbuf⟩
    by_cases hinit : i = .init
    · subst hinit
      exact ⟨_, (rfl : _ = stateAfterInit s), rfl, rfl⟩
    obtain ⟨hp, hb⟩ := effect_keeps_frame i s hpoll hinit
    exact ⟨buf, effect_withFbuf i buf s hpoll hinit, by rw [hb, hlen], by rw [hb, hp, hbuf]⟩
  exact hagrees

end Sys2Proof.Machine
end

section
/-! A run does its words one after the other, whatever still waits at the port (20_memory.md R85). -/

namespace Sys2Proof.Machine

open Sys2Proof

/-! ### Functions that do not look at the port or the position in the stream -/

/-- `s` with other words waiting and another position in the operation stream. -/
def withStream (words : List PortWord) (k : Nat) (s : State) : State :=
  { s with port := words, stepIndex := k }

@[simp] theorem withStream_port (words : List PortWord) (k : Nat) (s : State) :
    (withStream words k s).port = words := rfl

@[simp] theorem withStream_stepIndex (words : List PortWord) (k : Nat) (s : State) :
    (withStream words k s).stepIndex = k := rfl

@[simp] theorem withStream_withStream (words words' : List PortWord) (k k' : Nat) (s : State) :
    withStream words k (withStream words' k' s) = withStream words k s := rfl

/-- `g` does the same whatever waits at the port and wherever the stream stands, and leaves both. -/
def StreamFree (g : State → State) : Prop :=
  ∀ words k s, g (withStream words k s) = withStream words k (g s)

theorem StreamFree.id : StreamFree fun s => s := fun _ _ _ => rfl

theorem StreamFree.comp {f g : State → State} (hf : StreamFree f) (hg : StreamFree g) :
    StreamFree fun s => g (f s) := fun words k s => by
  dsimp only
  rw [hf, hg]

theorem StreamFree.foldl {α : Type} (g : State → α → State) (h : ∀ a, StreamFree fun s => g s a)
    (as : List α) : StreamFree fun s => as.foldl g s := fun words k _ =>
  List.foldl_hom (withStream words k) fun t a => h a words k t

/-- A branch on what is read. -/
theorem StreamFree.ite {c : State → Prop} [DecidablePred c] {f g : State → State}
    (hc : ∀ words k s, c (withStream words k s) ↔ c s) (hf : StreamFree f) (hg : StreamFree g) :
    StreamFree fun s => if c s then f s else g s := by
  intro words k s
  by_cases h : c s
  · simp only [hc, h, if_true, hf words k s]
  · simp only [hc, h, if_false, hg words k s]

/-- A function of an operand that is read from the state. -/
theorem StreamFree.read {α : Type} {g : α → State → State} (r : State → α)
    (hr : ∀ words k s, r (withStream words k s) = r s) (hg : ∀ a, StreamFree (g a)) :
    StreamFree fun s => g (r s) s := by
  intro words k s
  dsimp only
  rw [hr, hg (r s)]

/-! ### The windows -/

theorem winAppend_streamFree (q : Quantity) (v : RawSample) : StreamFree (winAppend q v) :=
  .ite (c := fun s => (s.win.get q).length < s.cfg.wCap) (fun _ _ _ => Iff.rfl) (fun _ _ _ => rfl)
    fun _ _ _ => rfl

theorem appendImageSample_streamFree (q : Quantity) : StreamFree (appendImageSample q) := by
  intro words k s
  by_cases h : ∃ i, s.cfg.src.get q = .twi i
  · obtain ⟨i, hsrc⟩ := h
    rw [appendImageSample_of_twi hsrc, appendImageSample_of_twi (s := withStream words k s) hsrc]
    exact winAppend_streamFree q (imgRead16 s i) words k s
  · have hsrc := not_exists.1 h
    rw [appendImageSample_of_not_twi hsrc,
      appendImageSample_of_not_twi (s := withStream words k s) hsrc]

theorem appendFrameSample_streamFree (q : Quantity) : StreamFree (appendFrameSample q) := by
  intro words k s
  by_cases h : ∃ o, s.cfg.src.get q = .ser o
  · obtain ⟨o, hsrc⟩ := h
    rw [appendFrameSample_of_ser hsrc, appendFrameSample_of_ser (s := withStream words k s) hsrc]
    exact winAppend_streamFree q (frameField s o) words k s
  · have hsrc := not_exists.1 h
    rw [appendFrameSample_of_not_ser hsrc,
      appendFrameSample_of_not_ser (s := withStream words k s) hsrc]

theorem sampleImage_streamFree : StreamFree sampleImage :=
  .ite (c := fun s => s.idle = true) (fun _ _ _ => Iff.rfl)
    (.foldl _ appendImageSample_streamFree Quantity.all) .id

theorem publishChecked_streamFree (q : Quantity) (v : RawSample) :
    StreamFree (publishChecked q v) :=
  .ite (c := fun s => s.cfg.min.get q ≤ physicalValue s.cfg q v ∧
      physicalValue s.cfg q v ≤ s.cfg.max.get q) (fun _ _ _ => Iff.rfl) (fun _ _ _ => rfl)
    fun _ _ _ => rfl

theorem drainOne_streamFree (q : Quantity) : StreamFree (drainOne q) :=
  .ite (c := fun s => (s.win.get q).length = 0) (fun _ _ _ => Iff.rfl) (fun _ _ _ => rfl)
    (.comp (g := winClear q)
      (.read (fun s => median (s.win.get q)) (fun _ _ _ => rfl) (publishChecked_streamFree q))
      fun _ _ _ => rfl)

/-! ### The serial path -/

theorem receiveByte_streamFree (b : Byte) : StreamFree (receiveByte b) :=
  .ite (c := fun s => s.cfg.serAttached = true) (fun _ _ _ => Iff.rfl)
    (.ite (c := fun s => fifoCount s < s.cfg.rxCap) (fun _ _ _ => Iff.rfl) (fun _ _ _ => rfl)
      fun _ _ _ => rfl) .id

theorem frameDone_streamFree : StreamFree frameDone :=
  .comp (f := fun s =>
      if fbufRead s (s.cfg.frameLen - 1) = checksum s.cfg s.fbuf then
        Quantity.all.foldl (fun t q => appendFrameSample q t) s
      else emitReport .serChecksumMismatch .diagnostic
        [(fbufRead s (s.cfg.frameLen - 1)).toNat, (checksum s.cfg s.fbuf).toNat] s)
    (g := fun s => { s with fpos := 0#4 })
    (.ite (c := fun s => fbufRead s (s.cfg.frameLen - 1) = checksum s.cfg s.fbuf)
      (fun _ _ _ => Iff.rfl) (.foldl _ appendFrameSample_streamFree Quantity.all)
      fun _ _ _ => rfl)
    fun _ _ _ => rfl

theorem headerMismatch_streamFree (b : Byte) : StreamFree (headerMismatch b) := fun _ _ _ => by
  rw [headerMismatch_eq, headerMismatch_eq]
  rfl

theorem syncByte_streamFree (b : Byte) : StreamFree (syncByte b) :=
  .ite (c := fun s => s.fpos.toNat < s.cfg.hdrLen) (fun _ _ _ => Iff.rfl)
    (.ite (c := fun s => s.cfg.hdr[s.fpos.toNat]? = some b) (fun _ _ _ => Iff.rfl)
      (fun _ _ _ => rfl) (headerMismatch_streamFree b))
    (.ite (c := fun s => s.fpos.toNat + 1 < s.cfg.frameLen) (fun _ _ _ => Iff.rfl)
      (fun _ _ _ => rfl)
      (.comp (f := fun s => fbufWrite s.fpos.toNat b s) (fun _ _ _ => rfl) frameDone_streamFree))

theorem skipBacklog_streamFree : StreamFree skipBacklog := by
  rw [funext skipBacklog_eq]
  exact .ite (c := fun s => s.cfg.backlogKeep < s.rxq.length) (fun _ _ _ => Iff.rfl)
    (fun _ _ _ => rfl) .id

theorem serialPass_streamFree : StreamFree serialPass := by
  have hbytes : StreamFree fun s => s.rxq.foldl (fun t b => syncByte b t) { s with rxq := [] } :=
    .read (g := fun bytes s => bytes.foldl (fun t b => syncByte b t) { s with rxq := [] })
      State.rxq (fun _ _ _ => rfl) fun bytes =>
        .comp (f := fun s => { s with rxq := [] }) (fun _ _ _ => rfl)
          (.foldl _ syncByte_streamFree bytes)
  rw [funext serialPass_eq]
  exact .ite (c := fun s => s.cfg.serAttached = true) (fun _ _ _ => Iff.rfl)
    (skipBacklog_streamFree.comp hbytes) .id

/-! ### The decoder -/

theorem ackSlot_streamFree (d : Bool) : StreamFree (ackSlot d) :=
  .comp (g := ackEnd)
    (.ite (c := fun s => s.bytecnt = 0#8) (fun _ _ _ => Iff.rfl)
      (fun _ _ _ => by cases d <;> rfl)
      (.ite (c := fun s => s.bytecnt = 1#8 ∧ s.dir = false) (fun _ _ _ => Iff.rfl)
        (fun _ _ _ => by cases d <;> rfl) fun _ _ _ => by cases d <;> rfl))
    fun _ _ _ => rfl

theorem clkRise_streamFree (c d : Bool) : StreamFree (clkRise c d) :=
  .ite (c := fun s => s.idle = true) (fun _ _ _ => Iff.rfl) .id
    (.ite (c := fun s => s.bitcnt.toNat < 8) (fun _ _ _ => Iff.rfl) (fun _ _ _ => rfl)
      (ackSlot_streamFree d))

theorem dataChg_streamFree (c d : Bool) : StreamFree (dataChg c d) := fun _ _ _ => by
  cases c <;> cases d <;> rfl

theorem lineSampled_streamFree (c d : Bool) : StreamFree (lineSampled c d) := by
  have hchanged : StreamFree fun s => if d != s.feSda then dataChg (s.feScl && c) d s else s :=
    .ite (c := fun s => (d != s.feSda) = true) (fun _ _ _ => Iff.rfl)
      (.read (g := fun hi => dataChg hi d) (fun s => s.feScl && c) (fun _ _ _ => rfl)
        fun hi => dataChg_streamFree hi d) .id
  exact .comp (g := fun s => { s with feScl := c, feSda := d })
    (.ite (c := fun s => (!s.feScl && c) = true) (fun _ _ _ => Iff.rfl)
      (hchanged.comp (clkRise_streamFree true d)) hchanged)
    fun _ _ _ => rfl

/-! ### Every operation and every word -/

theorem statusRead_streamFree (sel : BitVec 4) : StreamFree (statusRead sel) := by
  intro words k s
  unfold statusRead
  rw [show statusReg sel (withStream words k s) = statusReg sel s from rfl]
  cases statusReg sel s <;> rfl

theorem stateAfterInit_streamFree : StreamFree stateAfterInit :=
  .ite (c := fun s => s.cfg.serAttached = true) (fun _ _ _ => Iff.rfl) (fun _ _ _ => rfl)
    fun _ _ _ => rfl

/-- No operation looks at the port or the position in the stream. -/
theorem effect_streamFree (i : Instr) : StreamFree (effect i) := by
  cases i with
  | nop => exact .id
  | evClkRise c d => exact clkRise_streamFree c d
  | evDataChg c d => exact dataChg_streamFree c d
  | lineSample c d => exact lineSampled_streamFree c d
  | rxPush b => exact receiveByte_streamFree b
  | serPoll => exact serialPass_streamFree
  | sampleTick => exact sampleImage_streamFree
  | drain q => exact .foldl _ drainOne_streamFree (drainTargets q)
  | readStatus sel => exact statusRead_streamFree sel
  | init => exact stateAfterInit_streamFree

/-- The effect of an operation word on the state: `execWord` without its outcome
(`execWord_eq_wordEffect`). -/
def wordEffect (w : Word) (s : State) : State :=
  match decode w with
  | .legal i => effect i s
  | .illegal _ w' => illegalOp w' s

theorem execWord_eq_wordEffect (w : Word) (s : State) : execWord w s = .next (wordEffect w s) := by
  unfold execWord wordEffect
  cases decode w with
  | legal i => exact exec_eq_effect i s
  | illegal r w' => rfl

theorem wordEffect_streamFree (w : Word) : StreamFree (wordEffect w) := by
  unfold wordEffect
  cases decode w with
  | legal i => exact effect_streamFree i
  | illegal r w' => exact fun _ _ _ => rfl

/-! ### Words in order -/

/-- What a list of words does to the state, each completed before the next. -/
def wordsEffect (ws : List Word) (s : State) : State := ws.foldl (fun t w => wordEffect w t) s

theorem execWords_eq_wordsEffect (ws : List Word) (s : State) :
    execWords ws s = .next (wordsEffect ws s) := by
  induction ws generalizing s with
  | nil => rfl
  | cons w ws ih =>
    rw [execWords, execWord_eq_wordEffect]
    exact ih (wordEffect w s)

theorem wordsEffect_streamFree (ws : List Word) : StreamFree (wordsEffect ws) :=
  .foldl _ wordEffect_streamFree ws

theorem step_of_port_nil {s : State} (h : s.port = []) : step s = .next s := by
  simp only [step, fetch, h]

/-- A step with a word waiting does what the word does, and the word is gone. -/
theorem step_of_port_cons {s : State} {p : PortWord} {rest : List PortWord}
    (h : s.port = p :: rest) :
    step s = .next (withStream rest (s.stepIndex + 1) (wordEffect p.word s)) := by
  rw [← wordEffect_streamFree p.word, ← execWord_eq_wordEffect]
  simp only [step, fetch, h]
  rfl

/-- A run after a first step that answers a next state. -/
theorem run_succ_of_step {M : Host.Core} {s t : M.State} (n : Nat) (h : M.step s = .next t) :
    M.run (n + 1) s = M.run n t := by
  simp only [Host.Core.run, h]

/-- n steps do the first n words of the port, or all of them where fewer wait, and consume them. -/
theorem run_eq_wordsEffect (n : Nat) (s : State) :
    Host.Core.run Sys2Proof.core n s = .next
      (withStream (s.port.drop n) (s.stepIndex + min n s.port.length)
        (wordsEffect ((s.port.take n).map PortWord.word) s)) := by
  induction n generalizing s with
  | zero => simp [Host.Core.run, wordsEffect, withStream]
  | succ n ih =>
    cases hport : s.port with
    | nil =>
      rw [run_succ_of_step (M := Sys2Proof.core) n (step_of_port_nil hport), ih, hport]
      simp
    | cons p rest =>
      rw [run_succ_of_step (M := Sys2Proof.core) n (step_of_port_cons hport), ih,
        wordsEffect_streamFree]
      have hindex : s.stepIndex + 1 + min n rest.length =
          s.stepIndex + min (n + 1) (rest.length + 1) := by omega
      simp only [withStream_port, withStream_stepIndex, withStream_withStream, List.length_cons,
        hindex]
      rfl

/-- Settles O13: a run does its words in order, and none of them looks at what still waits. -/
theorem runIsItsWordsInArrivalOrder : Obligations.RunIsItsWordsInArrivalOrder := by
  unfold Obligations.RunIsItsWordsInArrivalOrder
  intro n s hn
  refine ⟨_, execWords_eq_wordsEffect _ s, ?_⟩
  rw [run_eq_wordsEffect, min_eq_left hn]
  rfl

end Sys2Proof.Machine
end

section
/-! How the clock rises of a byte assemble it (20_memory.md R73, 41_twi_decoder.md R135). -/

namespace Sys2Proof.Machine

open Sys2Proof

/-! ### The shift register -/

/-- One bit shifted into a byte at its low end. -/
def shiftIn (v : Byte) (d : Bool) : Byte := v.extractLsb' 0 7 ++ BitVec.ofBool d

theorem getLsbD_shiftIn_zero (v : Byte) (d : Bool) : (shiftIn v d).getLsbD 0 = d := by
  rw [shiftIn, BitVec.getLsbD_append]
  simp

theorem getLsbD_shiftIn_succ (v : Byte) (d : Bool) (i : Nat) (h : i < 7) :
    (shiftIn v d).getLsbD (i + 1) = v.getLsbD i := by
  rw [shiftIn, BitVec.getLsbD_append]
  simp [h]

/-- The bits shifted in since bit i are below it: the last of them is bit 0. -/
theorem getLsbD_foldl_shiftIn (v : Byte) (ds : List Bool) (i : Nat) (hi : i < 8)
    (hds : i < ds.length) : (ds.foldl shiftIn v).getLsbD i = ds.reverse[i]'(by simpa) := by
  induction ds using List.reverseRecOn generalizing i with
  | nil => simp at hds
  | append_singleton ds d ih =>
    cases i with
    | zero =>
      rw [List.foldl_append, List.foldl_cons, List.foldl_nil, getLsbD_shiftIn_zero]
      simp
    | succ i =>
      have hlen : i < ds.length := by simpa using hds
      rw [List.foldl_append, List.foldl_cons, List.foldl_nil, getLsbD_shiftIn_succ _ _ i (by omega),
        ih i (by omega) hlen]
      simp

/-- The bits of a byte, most significant first, replace whatever the register held. -/
theorem foldl_shiftIn_bitsMsbFirst (v b : Byte) : (bitsMsbFirst b).foldl shiftIn v = b := by
  refine BitVec.eq_of_getLsbD_eq fun i hi => ?_
  rw [getLsbD_foldl_shiftIn v _ i hi (by simpa [bitsMsbFirst] using hi)]
  simp only [bitsMsbFirst, List.getElem_reverse, List.getElem_map, List.getElem_range,
    List.length_map, List.length_range]
  congr 1
  omega

/-! ### Data bits -/

/-- A clock rise at bit index 0 to 7 is a data bit. -/
theorem clkRise_of_bit {c d : Bool} {s : State} (hidle : s.idle = false) (hbit : s.bitcnt.toNat < 8) :
    clkRise c d s = dataBit d s := by
  simp [clkRise, hidle, hbit]

theorem toNat_bitcnt_dataBit {d : Bool} {s : State} (hbit : s.bitcnt.toNat < 8) :
    (dataBit d s).bitcnt.toNat = s.bitcnt.toNat + 1 := by
  rw [dataBit_bitcnt, BitVec.toNat_add, BitVec.toNat_ofNat]
  omega

/-- A data bit before the last of a byte leaves the direction. -/
theorem dataBit_of_not_last {d : Bool} {s : State} (hbit : s.bitcnt.toNat < 7) :
    dataBit d s = { s with shreg := shiftIn s.shreg d, bitcnt := s.bitcnt + 1#4 } := by
  have h7 : s.bitcnt ≠ 7#4 := fun e => by simp [e] at hbit
  simp only [dataBit, h7, and_false, if_false]
  rfl

/-- The last data bit of a byte is the direction where the byte is the address. -/
theorem dataBit_of_last {d : Bool} {s : State} (hbit : s.bitcnt = 7#4) :
    dataBit d s =
      { s with
        shreg := shiftIn s.shreg d
        bitcnt := 8#4
        dir := if s.bytecnt = 0#8 then d else s.dir } := by
  simp only [dataBit, hbit, and_true]
  rfl

/-- Clock rises that stay within the eight data bits of a byte are its data bits. -/
theorem execAll_bitEvents (ds : List Bool) (s : State) (hidle : s.idle = false)
    (hbit : s.bitcnt.toNat + ds.length ≤ 8) :
    execAll (ds.map bitEvent) s = .next (ds.foldl (fun t d => dataBit d t) s) := by
  induction ds generalizing s with
  | nil => rfl
  | cons d ds ih =>
    rw [List.length_cons] at hbit
    have hlt : s.bitcnt.toNat < 8 := by omega
    have hexec : exec (bitEvent d) s = .next (dataBit d s) := by
      rw [bitEvent, exec_evClkRise, clkRise_of_bit hidle hlt]
    rw [List.map_cons, execAll_cons _ _ _ _ hexec, List.foldl_cons]
    exact ih (dataBit d s) hidle (by rw [toNat_bitcnt_dataBit hlt]; omega)

/-- Data bits before the last of a byte shift in and count. -/
theorem foldl_dataBit_of_not_last (ds : List Bool) (s : State)
    (hbit : s.bitcnt.toNat + ds.length ≤ 7) :
    ds.foldl (fun t d => dataBit d t) s =
      { s with
        shreg := ds.foldl shiftIn s.shreg
        bitcnt := s.bitcnt + BitVec.ofNat 4 ds.length } := by
  induction ds generalizing s with
  | nil => simp
  | cons d ds ih =>
    rw [List.length_cons] at hbit
    have hlt : s.bitcnt.toNat < 7 := by omega
    rw [List.foldl_cons, ih _ (by rw [toNat_bitcnt_dataBit (by omega)]; omega),
      dataBit_of_not_last hlt]
    simp [BitVec.ofNat_add, BitVec.add_assoc, BitVec.add_comm (1#4)]

/-- The bits of a byte but the last, then bit 0. -/
theorem bitsMsbFirst_eq (b : Byte) :
    bitsMsbFirst b = (List.range 7).map (fun k => b.getLsbD (7 - k)) ++ [b.getLsbD 0] := by
  rw [bitsMsbFirst, List.range_succ, List.map_append]
  rfl

/-- The eight data bits of a byte. -/
theorem foldl_dataBit_bitsMsbFirst (b : Byte) (s : State) (hbit : s.bitcnt = 0#4) :
    (bitsMsbFirst b).foldl (fun t d => dataBit d t) s =
      { s with
        shreg := b
        bitcnt := 8#4
        dir := if s.bytecnt = 0#8 then b.getLsbD 0 else s.dir } := by
  have hbyte : shiftIn (((List.range 7).map fun k => b.getLsbD (7 - k)).foldl shiftIn s.shreg)
      (b.getLsbD 0) = b := by
    simpa only [bitsMsbFirst_eq, List.foldl_append, List.foldl_cons, List.foldl_nil] using
      foldl_shiftIn_bitsMsbFirst s.shreg b
  rw [bitsMsbFirst_eq, List.foldl_append, foldl_dataBit_of_not_last _ s (by simp [hbit]),
    List.foldl_cons, List.foldl_nil, dataBit_of_last (by simp [hbit]), hbyte]

/-- Settles O34: the eight rises are data bits, which shift the byte in and latch the last of them. -/
theorem eightClockRisesAssembleTheByte : Obligations.EightClockRisesAssembleTheByte := by
  unfold Obligations.EightClockRisesAssembleTheByte
  intro s b hidle hbit
  rw [execAll_bitEvents (bitsMsbFirst b) s hidle (by simp [hbit, bitsMsbFirst]),
    foldl_dataBit_bitsMsbFirst b s hbit]

end Sys2Proof.Machine
end

section
/-! What one SAMPLE_TICK does to every window (43_aggregator.md R202, 20_memory.md R74, R75, R80). -/

namespace Sys2Proof.Machine

open Sys2Proof

/-! ### The sample a SAMPLE_TICK takes -/

theorem tickSample_of_twi {q : Quantity} {i : Nat} {s : State} (h : s.cfg.src.get q = .twi i) :
    tickSample s q = some (imgRead16 s i) := by
  simp only [tickSample, h]
  rfl

theorem tickSample_of_not_twi {q : Quantity} {s : State} (h : ∀ i, s.cfg.src.get q ≠ .twi i) :
    tickSample s q = none := by
  unfold tickSample
  split
  · rename_i i hsrc
    exact absurd hsrc (h i)
  · rfl
  · rfl

/-- The image sample of a quantity is the append of its tick sample, where there is one. -/
theorem appendImageSample_cases (q : Quantity) (s : State) :
    (tickSample s q = none ∧ appendImageSample q s = s) ∨
      ∃ v, tickSample s q = some v ∧ appendImageSample q s = winAppend q v s := by
  by_cases h : ∃ i, s.cfg.src.get q = .twi i
  · obtain ⟨i, hsrc⟩ := h
    exact .inr ⟨_, tickSample_of_twi hsrc, appendImageSample_of_twi hsrc⟩
  · have hsrc := not_exists.1 h
    exact .inl ⟨tickSample_of_not_twi hsrc, appendImageSample_of_not_twi hsrc⟩

/-! ### One quantity -/

/-- The window of `q` after a SAMPLE_TICK. -/
def windowAfterTick (s : State) (q : Quantity) : List RawSample :=
  if tickOverflows s q = true then s.win.get q else s.win.get q ++ (tickSample s q).toList

/-- The report for a sample that finds the window of `q` full (20_memory.md R80). -/
def windowOverflowReport (q : Quantity) : Event := .report .windowOverflow .warning [q.index]

theorem PerQuantity.set_get_self {α : Type} (p : PerQuantity α) (q : Quantity) :
    p.set q (p.get q) = p := by
  cases q <;> rfl

/-- The tick's work on one quantity, as one update of the state. -/
theorem appendImageSample_eq (q : Quantity) (s : State) :
    appendImageSample q s =
      { s with
        win := s.win.set q (windowAfterTick s q)
        fWinovf := s.fWinovf || tickOverflows s q
        out := s.out ++ if tickOverflows s q then [windowOverflowReport q] else [] } := by
  rcases appendImageSample_cases q s with ⟨hv, e⟩ | ⟨v, hv, e⟩
  · simp [e, windowAfterTick, tickOverflows, hv, PerQuantity.set_get_self]
  · rcases winAppend_cases q v s with ⟨hroom, e'⟩ | ⟨hfull, e'⟩
    · simp [e, e', windowAfterTick, tickOverflows, hv, Nat.not_le.2 hroom]
    · simp [e, e', windowAfterTick, tickOverflows, windowOverflowReport, hv, hfull,
        PerQuantity.set_get_self]

/-- The work on one quantity leaves what the tick does to the others. -/
theorem tickOverflows_appendImageSample {q r : Quantity} (h : r ≠ q) (s : State) :
    tickOverflows (appendImageSample q s) r = tickOverflows s r := by
  rw [appendImageSample_eq]
  simp only [tickOverflows, PerQuantity.get_set_of_ne _ _ _ _ h]
  rfl

theorem windowAfterTick_appendImageSample {q r : Quantity} (h : r ≠ q) (s : State) :
    windowAfterTick (appendImageSample q s) r = windowAfterTick s r := by
  unfold windowAfterTick
  rw [tickOverflows_appendImageSample h, appendImageSample_eq]
  simp only [PerQuantity.get_set_of_ne _ _ _ _ h]
  rfl

/-! ### Every quantity -/

/-- The tick's work on a list of different quantities: each is treated as if it were the only one, and
the reports come in the order of the list. -/
theorem foldl_appendImageSample (qs : List Quantity) (hqs : qs.Nodup) (s : State) :
    ∃ win : PerQuantity (List RawSample),
      (∀ q, win.get q = if q ∈ qs then windowAfterTick s q else s.win.get q) ∧
      qs.foldl (fun t q => appendImageSample q t) s =
        { s with
          win := win
          fWinovf := s.fWinovf || qs.any (tickOverflows s)
          out := s.out ++ (qs.filter (tickOverflows s)).map windowOverflowReport } := by
  induction qs generalizing s with
  | nil => exact ⟨s.win, by simp, by simp⟩
  | cons q qs ih =>
    obtain ⟨hq, hqs⟩ := List.nodup_cons.1 hqs
    obtain ⟨win, hwin, hfold⟩ := ih hqs (appendImageSample q s)
    have hne : ∀ r ∈ qs, r ≠ q := fun r hr e => hq (e ▸ hr)
    have hover : ∀ r ∈ qs, tickOverflows (appendImageSample q s) r = tickOverflows s r :=
      fun r hr => tickOverflows_appendImageSample (hne r hr) s
    have hany : qs.any (tickOverflows (appendImageSample q s)) = qs.any (tickOverflows s) := by
      rw [Bool.eq_iff_iff, List.any_eq_true, List.any_eq_true]
      exact exists_congr fun r => and_congr_right fun hr => by rw [hover r hr]
    refine ⟨win, fun r => ?_, ?_⟩
    · rw [hwin]
      by_cases hr : r ∈ qs
      · simp [hr, windowAfterTick_appendImageSample (hne r hr)]
      · simp only [hr, List.mem_cons, or_false, if_false, appendImageSample_eq,
          PerQuantity.get_set]
        split
        · rename_i e
          rw [e]
        · rfl
    · rw [List.foldl_cons, hfold, List.filter_congr hover, hany,
        appendImageSample_eq]
      cases h : tickOverflows s q <;> simp [h]

/-- Settles O46: the three quantities are different, so each window is treated on its own. -/
theorem sampleTickAppendsTheRegisterPairs : Obligations.SampleTickAppendsTheRegisterPairs := by
  unfold Obligations.SampleTickAppendsTheRegisterPairs
  intro s hidle
  obtain ⟨win, hwin, hfold⟩ := foldl_appendImageSample Quantity.all (by decide) s
  rw [exec_sampleTick, sampleImage, if_pos hidle, hfold]
  refine ⟨_, rfl, fun q => ?_, rfl⟩
  exact (hwin q).trans (if_pos (Quantity.mem_all q))

end Sys2Proof.Machine
end

section
/-! The decoder and the encoder as arithmetic on the number of a word: what decodes to what, which words
are legal and how many (30_encoding.md R100 to R106), and the words the assembler gives (R108, R109). -/

namespace Sys2Proof.Machine

open Sys2Proof

/-! ### The fields of a word -/

theorem opcodeOf_toNat (w : Word) : (opcodeOf w).toNat = w.toNat / 4096 := by
  have hw : w.toNat < 65536 := w.isLt
  rw [opcodeOf, BitVec.extractLsb'_toNat, Nat.shiftRight_eq_div_pow]
  omega

theorem operandC_toNat (w : Word) : (operandC w).toNat = w.toNat / 2 % 2 := Nat.toNat_testBit _ 1

theorem operandD_toNat (w : Word) : (operandD w).toNat = w.toNat % 2 := by
  rw [operandD, BitVec.getLsbD, Nat.toNat_testBit, Nat.pow_zero, Nat.div_one]

theorem operandB_toNat (w : Word) : (operandB w).toNat = w.toNat % 256 :=
  BitVec.extractLsb'_toNat 0 8 w

theorem operandQ_toNat (w : Word) : (operandQ w).toNat = w.toNat % 4 := BitVec.extractLsb'_toNat 0 2 w

theorem operandSel_toNat (w : Word) : (operandSel w).toNat = w.toNat % 16 :=
  BitVec.extractLsb'_toNat 0 4 w

/-- A field of a word is zero exactly when its number is. -/
theorem extractLsb'_beq_zero_iff (start len : Nat) (w : Word) :
    (w.extractLsb' start len == 0#len) = true ↔ w.toNat / 2 ^ start % 2 ^ len = 0 := by
  rw [beq_iff_eq, ← BitVec.toNat_inj, BitVec.extractLsb'_toNat, Nat.shiftRight_eq_div_pow,
    BitVec.toNat_ofNat, Nat.zero_mod]

theorem noneBitsZero_iff (w : Word) : noneBitsZero w = true ↔ w.toNat % 4096 = 0 := by
  rw [noneBitsZero, extractLsb'_beq_zero_iff]
  omega

theorem lineBitsZero_iff (w : Word) : lineBitsZero w = true ↔ w.toNat % 4096 < 4 := by
  rw [lineBitsZero, extractLsb'_beq_zero_iff]
  omega

theorem byteBitsZero_iff (w : Word) : byteBitsZero w = true ↔ w.toNat % 4096 < 256 := by
  rw [byteBitsZero, extractLsb'_beq_zero_iff]
  omega

theorem selBitsZero_iff (w : Word) : selBitsZero w = true ↔ w.toNat % 4096 < 16 := by
  rw [selBitsZero, extractLsb'_beq_zero_iff]
  omega

theorem selectorAssigned_iff (sel : BitVec 4) :
    selectorAssigned sel = true ↔ sel.toNat ≤ 6 ∨ 8 ≤ sel.toNat ∧ sel.toNat ≤ 10 := by
  simp only [selectorAssigned, Bool.or_eq_true, Bool.and_eq_true, decide_eq_true_eq]

/-! ### The formats: the operand bits of a word are those of one operand (30_encoding.md R101, R102) -/

theorem boolToNat_injective : Function.Injective Bool.toNat :=
  Function.LeftInverse.injective Bool.ofNat_toNat

/-- Format F-LINE. -/
theorem lineFormat_iff (w : Word) (c d : Bool) :
    lineBitsZero w = true ∧ operandC w = c ∧ operandD w = d ↔
      w.toNat % 4096 = 2 * c.toNat + d.toNat := by
  have hc := operandC_toNat w
  have hd := operandD_toNat w
  have hclt := c.toNat_lt
  have hdlt := d.toNat_lt
  rw [lineBitsZero_iff, ← boolToNat_injective.eq_iff, ← boolToNat_injective.eq_iff]
  omega

/-- Format F-BYTE. -/
theorem byteFormat_iff (w : Word) (b : Byte) :
    byteBitsZero w = true ∧ operandB w = b ↔ w.toNat % 4096 = b.toNat := by
  have hb : b.toNat < 256 := b.isLt
  rw [byteBitsZero_iff, ← BitVec.toNat_inj, operandB_toNat]
  omega

/-- Format F-Q. -/
theorem quantityFormat_iff (w : Word) (q : BitVec 2) :
    lineBitsZero w = true ∧ operandQ w = q ↔ w.toNat % 4096 = q.toNat := by
  have hq : q.toNat < 4 := q.isLt
  rw [lineBitsZero_iff, ← BitVec.toNat_inj, operandQ_toNat]
  omega

/-- Format F-SEL. -/
theorem selectorFormat_iff (w : Word) (sel : BitVec 4) :
    selBitsZero w = true ∧ operandSel w = sel ↔ w.toNat % 4096 = sel.toNat := by
  have hsel : sel.toNat < 16 := sel.isLt
  rw [selBitsZero_iff, ← BitVec.toNat_inj, operandSel_toNat]
  omega

/-! ### The number of an operation's word (the word patterns of 30_encoding.md R103) -/

/-- The opcode of an operation, as the opcode map lists it. -/
def opcodeNumber : Instr → Nat
  | .nop => 0x0
  | .evClkRise _ _ => 0x1
  | .evDataChg _ _ => 0x2
  | .lineSample _ _ => 0x3
  | .rxPush _ => 0x4
  | .serPoll => 0x5
  | .sampleTick => 0x6
  | .drain _ => 0x7
  | .readStatus _ => 0x8
  | .init => 0x9

/-- The operand field of an operation as a number, as the word patterns of the opcode map write it. -/
def operandNumber : Instr → Nat
  | .evClkRise c d | .evDataChg c d | .lineSample c d => 2 * c.toNat + d.toNat
  | .rxPush b => b.toNat
  | .drain q => q.toNat
  | .readStatus sel => sel.toNat
  | .nop | .serPoll | .sampleTick | .init => 0

/-- The width of an operation's operand in its format (30_encoding.md R101). -/
def operandBits : Instr → Nat
  | .evClkRise _ _ | .evDataChg _ _ | .lineSample _ _ | .drain _ => 2
  | .rxPush _ => 8
  | .readStatus _ => 4
  | .nop | .serPoll | .sampleTick | .init => 0

theorem operandNumber_lt (i : Instr) : operandNumber i < 2 ^ operandBits i := by
  cases i with
  | evClkRise c d | evDataChg c d | lineSample c d =>
    have hc := c.toNat_lt
    have hd := d.toNat_lt
    rw [operandNumber, operandBits]
    omega
  | rxPush b => exact b.isLt
  | drain q => exact q.isLt
  | readStatus sel => exact sel.isLt
  | _ => exact Nat.zero_lt_one

/-- The operand is within the twelve bits below the opcode. -/
theorem two_pow_operandBits_dvd (i : Instr) : 2 ^ operandBits i ∣ 4096 := by
  refine Nat.pow_dvd_pow 2 (n := 12) ?_
  cases i <;> simp only [operandBits] <;> decide

theorem operandNumber_lt_4096 (i : Instr) : operandNumber i < 4096 :=
  (operandNumber_lt i).trans_le (Nat.le_of_dvd (by decide) (two_pow_operandBits_dvd i))

theorem lineWord_toNat (op : BitVec 4) (c d : Bool) :
    (lineWord op c d).toNat = 4096 * op.toNat + (2 * c.toNat + d.toNat) := by
  simp only [lineWord, toNat_append_eq_add, BitVec.toNat_ofBool, BitVec.toNat_ofNat]
  omega

/-- The number of an operation's word is its opcode and its operand field. -/
theorem encode_toNat (i : Instr) : (encode i).toNat = 4096 * opcodeNumber i + operandNumber i := by
  cases i with
  | evClkRise c d => exact lineWord_toNat 0x1#4 c d
  | evDataChg c d => exact lineWord_toNat 0x2#4 c d
  | lineSample c d => exact lineWord_toNat 0x3#4 c d
  | rxPush b => exact toNat_append_eq_add (0x4#4 ++ 0#4) b
  | drain q => exact toNat_append_eq_add (0x7#4 ++ 0#10) q
  | readStatus sel => exact encode_readStatus_toNat sel
  | _ => rfl

/-- The word of an operation is the one with its opcode and its operand field. -/
theorem encode_eq_iff (i : Instr) (w : Word) :
    encode i = w ↔ (opcodeOf w).toNat = opcodeNumber i ∧ w.toNat % 4096 = operandNumber i := by
  have hlt := operandNumber_lt_4096 i
  rw [← BitVec.toNat_inj, encode_toNat, opcodeOf_toNat]
  omega

/-! ### What a word decodes to -/

theorem ifZero_eq_legal_iff (z : Bool) (w : Word) (i j : Instr) :
    ifZero z w i = .legal j ↔ z = true ∧ i = j := by
  cases z <;> simp [ifZero]

theorem isLegal_illegal (r : IllegalReason) (w : Word) : (Decoded.illegal r w).isLegal = false := rfl

theorem isLegal_ifZero (z : Bool) (w : Word) (i : Instr) : (ifZero z w i).isLegal = z := by
  cases z <;> rfl

theorem decodeSelector_eq_legal_iff (w : Word) (i : Instr) :
    decodeSelector w = .legal i ↔
      selBitsZero w = true ∧ selectorAssigned (operandSel w) = true ∧
        .readStatus (operandSel w) = i := by
  unfold decodeSelector
  cases selBitsZero w <;> cases selectorAssigned (operandSel w) <;> simp

theorem isLegal_decodeSelector (w : Word) :
    (decodeSelector w).isLegal = (selBitsZero w && selectorAssigned (operandSel w)) := by
  unfold decodeSelector
  cases selBitsZero w <;> cases selectorAssigned (operandSel w) <;> rfl

/-- A word decodes only to a well-formed operation, and that is the operation with its opcode and its
operand field. The branches of the decoder stand in the order of the opcodes, from 0 at `h_1`. -/
theorem encode_of_decode {w : Word} {i : Instr} (h : decode w = .legal i) :
    encode i = w ∧ i.wf = true := by
  rw [encode_eq_iff]
  unfold decode at h
  split at h <;> rename_i hop <;>
    simp only [ifZero_eq_legal_iff, decodeSelector_eq_legal_iff, reduceCtorEq] at h <;>
    obtain ⟨hz, h⟩ := h
  case h_2 | h_3 | h_4 => -- F-LINE
    subst h
    exact ⟨⟨hop, (lineFormat_iff w _ _).1 ⟨hz, rfl, rfl⟩⟩, rfl⟩
  case h_5 => -- F-BYTE
    subst h
    exact ⟨⟨hop, (byteFormat_iff w _).1 ⟨hz, rfl⟩⟩, rfl⟩
  case h_8 => -- F-Q
    subst h
    exact ⟨⟨hop, (quantityFormat_iff w _).1 ⟨hz, rfl⟩⟩, rfl⟩
  case h_9 => -- F-SEL
    obtain ⟨hsel, rfl⟩ := h
    exact ⟨⟨hop, (selectorFormat_iff w _).1 ⟨hz, rfl⟩⟩, hsel⟩
  all_goals -- F-NONE
    subst h
    exact ⟨⟨hop, (noneBitsZero_iff w).1 hz⟩, rfl⟩

/-- The word of a well-formed operation decodes to it. -/
theorem decode_encode {i : Instr} (hwf : i.wf = true) : decode (encode i) = .legal i := by
  obtain ⟨hop, hoperand⟩ := (encode_eq_iff i _).1 rfl
  rw [decode, hop]
  cases i with
  | evClkRise c d | evDataChg c d | lineSample c d =>
    obtain ⟨hz, hc, hd⟩ := (lineFormat_iff _ c d).2 hoperand
    exact (ifZero_eq_legal_iff _ _ _ _).2 ⟨hz, by rw [hc, hd]⟩
  | rxPush b =>
    obtain ⟨hz, hb⟩ := (byteFormat_iff _ b).2 hoperand
    exact (ifZero_eq_legal_iff _ _ _ _).2 ⟨hz, by rw [hb]⟩
  | drain q =>
    obtain ⟨hz, hq⟩ := (quantityFormat_iff _ q).2 hoperand
    exact (ifZero_eq_legal_iff _ _ _ _).2 ⟨hz, by rw [hq]⟩
  | readStatus sel =>
    obtain ⟨hz, hsel⟩ := (selectorFormat_iff _ sel).2 hoperand
    exact (decodeSelector_eq_legal_iff _ _).2 ⟨hz, by rw [hsel]; exact hwf, by rw [hsel]⟩
  | _ => exact (ifZero_eq_legal_iff _ _ _ _).2 ⟨(noneBitsZero_iff _).2 hoperand, rfl⟩

/-- Settles O1, format by format. -/
theorem decodeOfEncodeIsTheOperation : Obligations.DecodeOfEncodeIsTheOperation := by
  unfold Obligations.DecodeOfEncodeIsTheOperation
  exact fun i hwf => decode_encode hwf

/-- Settles O2, branch by branch of the decoder. -/
theorem encodeOfDecodeIsTheWord : Obligations.EncodeOfDecodeIsTheWord := by
  unfold Obligations.EncodeOfDecodeIsTheWord
  exact fun w i h => encode_of_decode h

/-- Settles O5: the legal words are those of their operations. -/
theorem vectorWordsDecodeAsListed : Obligations.VectorWordsDecodeAsListed := by
  unfold Obligations.VectorWordsDecodeAsListed
  exact ⟨decode_encode (i := .nop) rfl, decode_encode (i := .evClkRise true true) rfl,
    decode_encode (i := .evClkRise false true) rfl, decode_encode (i := .evDataChg true false) rfl,
    decode_encode (i := .lineSample true true) rfl, decode_encode (i := .rxPush 0xFF#8) rfl,
    decode_encode (i := .serPoll) rfl, decode_encode (i := .sampleTick) rfl,
    decode_encode (i := .drain 3#2) rfl, decode_encode (i := .readStatus 10#4) rfl,
    decode_encode (i := .init) rfl, by decide, by decide, by decide⟩

/-! ### The legal words -/

/-- The runs of legal words, each as its first number and its length: the summands of "1 + 4 + 4 + 4 +
256 + 1 + 1 + 4 + 10 + 1" (30_encoding.md R106), with the ten selectors in their two runs. -/
def legalRuns : List (Nat × Nat) :=
  [(0x0000, 1), (0x1000, 4), (0x2000, 4), (0x3000, 4), (0x4000, 256), (0x5000, 1), (0x6000, 1),
    (0x7000, 4), (0x8000, 7), (0x8008, 3), (0x9000, 1)]

/-- A word is legal exactly when its number is in a run: opcode by opcode, the bits that must be 0 bound
the operand field. -/
theorem isLegal_iff_runs (w : Word) :
    (decode w).isLegal = true ↔ ∃ r ∈ legalRuns, r.1 ≤ w.toNat ∧ w.toNat < r.1 + r.2 := by
  have hop := opcodeOf_toNat w
  simp only [legalRuns, List.mem_cons, List.not_mem_nil, or_false, exists_eq_or_imp, exists_eq_left]
  unfold decode
  split <;>
    simp only [isLegal_ifZero, isLegal_decodeSelector, noneBitsZero_iff, lineBitsZero_iff,
      byteBitsZero_iff, Bool.and_eq_true, selBitsZero_iff, selectorAssigned_iff, operandSel_toNat,
      isLegal_illegal, Bool.false_eq_true, imp_false, false_iff] at * <;>
    omega

/-- The numbers of the legal words, one run after the other. -/
def legalNumbers : List Nat := legalRuns.flatMap fun r => List.range' r.1 r.2

theorem mem_legalNumbers_iff (w : Word) : w.toNat ∈ legalNumbers ↔ (decode w).isLegal = true := by
  simp only [isLegal_iff_runs, legalNumbers, List.mem_flatMap, List.mem_range'_1]

/-- The runs end below 2^16 and each begins at or after the end of those before it. -/
theorem legalRuns_separate : (∀ r ∈ legalRuns, r.1 + r.2 ≤ 65536) ∧
    legalRuns.Pairwise fun r r' => r.1 + r.2 ≤ r'.1 := by
  decide

theorem legalNumbers_nodup : legalNumbers.Nodup := by
  refine List.nodup_flatMap.2 ⟨fun r _ => List.nodup_range', ?_⟩
  refine legalRuns_separate.2.imp fun {r r'} h n hn hn' => ?_
  rw [List.mem_range'_1] at hn hn'
  omega

theorem legalNumbers_length : legalNumbers.length = 286 := by
  simp [legalNumbers, legalRuns]

theorem lt_of_mem_legalNumbers {n : Nat} (h : n ∈ legalNumbers) : n < 65536 := by
  obtain ⟨r, hr, hn⟩ := List.mem_flatMap.1 h
  rw [List.mem_range'_1] at hn
  have hend := legalRuns_separate.1 r hr
  omega

theorem card_words : (Finset.univ : Finset Word).card = 65536 := by
  rw [Finset.card_univ]
  exact (Fintype.card_congr BitVec.equivFin.toEquiv).trans (Fintype.card_fin (2 ^ 16))

/-- There are as many legal words as legal numbers. -/
theorem card_isLegal : (Finset.univ.filter fun w : Word => (decode w).isLegal = true).card = 286 := by
  have himage : (Finset.univ.filter fun w : Word => (decode w).isLegal = true).image BitVec.toNat =
      legalNumbers.toFinset := by
    ext n
    simp only [Finset.mem_image, Finset.mem_filter, Finset.mem_univ, true_and, List.mem_toFinset,
      ← mem_legalNumbers_iff]
    constructor
    · rintro ⟨w, hw, rfl⟩
      exact hw
    · intro hn
      have hword : (BitVec.ofNat 16 n).toNat = n := by
        rw [BitVec.toNat_ofNat, Nat.mod_eq_of_lt (lt_of_mem_legalNumbers hn)]
      exact ⟨BitVec.ofNat 16 n, by rwa [hword], hword⟩
  calc (Finset.univ.filter fun w : Word => (decode w).isLegal = true).card
      = ((Finset.univ.filter fun w : Word => (decode w).isLegal = true).image BitVec.toNat).card :=
        (Finset.card_image_of_injective _ BitVec.toNat_injective).symm
    _ = legalNumbers.toFinset.card := by rw [himage]
    _ = legalNumbers.length := List.toFinset_card_of_nodup legalNumbers_nodup
    _ = 286 := legalNumbers_length

/-- Of m + n values, m pass a test exactly when n do not. -/
theorem card_filter_false_of_card_filter_true {α : Type} [Fintype α] (p : α → Bool) (m n : Nat)
    (hall : (Finset.univ : Finset α).card = m + n)
    (htrue : (Finset.univ.filter fun a => p a = true).card = m) :
    (Finset.univ.filter fun a => p a = false).card = n := by
  have hsum := Finset.card_filter_add_card_filter_not (s := (Finset.univ : Finset α)) fun a => p a = true
  simp only [Bool.not_eq_true] at hsum
  omega

/-- Settles O4: the runs are disjoint and their lengths add up to 286; the other words are the rest. -/
theorem legalWordsNumberTwoHundredEightySix :
    Obligations.LegalWordsNumberTwoHundredEightySix := by
  unfold Obligations.LegalWordsNumberTwoHundredEightySix
  exact ⟨card_isLegal, card_filter_false_of_card_filter_true _ 286 65250 card_words card_isLegal⟩

/-! ### The opcode map -/

/-- A word matches bits on all but its k low bits. -/
theorem and_highMask_eq_iff (k : Nat) (w bits : Word) :
    w &&& BitVec.allOnes 16 <<< k = bits ↔ w.toNat / 2 ^ k * 2 ^ k = bits.toNat := by
  have hle : w.toNat / 2 ^ k * 2 ^ k < 2 ^ 16 := (Nat.div_mul_le_self _ _).trans_lt w.isLt
  rw [← BitVec.shiftLeft_ushiftRight, ← BitVec.toNat_inj, BitVec.toNat_shiftLeft,
    BitVec.toNat_ushiftRight, Nat.shiftRight_eq_div_pow, Nat.shiftLeft_eq, Nat.mod_eq_of_lt hle]

/-- The masks of the opcode map leave out the operand bits of the five formats. -/
theorem rowMasks_eq : 0xFFFF#16 = BitVec.allOnes 16 <<< 0 ∧ 0xFFFC#16 = BitVec.allOnes 16 <<< 2 ∧
    0xFFF0#16 = BitVec.allOnes 16 <<< 4 ∧ 0xFF00#16 = BitVec.allOnes 16 <<< 8 := by
  decide

theorem and_selectorMask_toNat (w : Word) : (w &&& 0x000F#16).toNat = w.toNat % 16 := by
  rw [BitVec.toNat_and]
  exact Nat.and_two_pow_sub_one_eq_mod w.toNat 4

/-- The words that match a row, reserved selectors apart, are those in a run. -/
theorem matches_row_iff_runs (w : Word) :
    (∃ r ∈ opcodeRows, w &&& r.mask = r.bits ∧
      ¬(r.mnemonic = "READ_STATUS" ∧ (w &&& 0x000F#16).toNat ∈ [7, 11, 12, 13, 14, 15])) ↔
    ∃ r ∈ legalRuns, r.1 ≤ w.toNat ∧ w.toNat < r.1 + r.2 := by
  obtain ⟨hnone, hline, hsel, hbyte⟩ := rowMasks_eq
  simp only [opcodeRows, legalRuns, List.mem_cons, List.not_mem_nil, or_false, exists_eq_or_imp,
    exists_eq_left, hnone, hline, hsel, hbyte, and_highMask_eq_iff, and_selectorMask_toNat,
    BitVec.toNat_ofNat, String.reduceEq, false_and, true_and, not_false_eq_true, and_true]
  omega

/-- The row of the opcode map for an operation: it leaves out the operand bits
(`opcodeRows_getElem?_opcodeNumber`). -/
def rowOf (i : Instr) : OpcodeRow :=
  ⟨mnemonicOf i, BitVec.ofNat 16 (4096 * opcodeNumber i), BitVec.allOnes 16 <<< operandBits i⟩

/-- The rows of the opcode map stand in the order of their opcodes. -/
theorem opcodeRows_getElem?_opcodeNumber (i : Instr) :
    opcodeRows[opcodeNumber i]? = some (rowOf i) := by
  cases i <;> simp only [rowOf, mnemonicOf, opcodeNumber, operandBits] <;> rfl

/-- The word of an operation matches the operation's row. -/
theorem encode_matches_rowOf (i : Instr) : encode i &&& (rowOf i).mask = (rowOf i).bits := by
  obtain ⟨m, hm⟩ := two_pow_operandBits_dvd i
  have hword : 4096 * opcodeNumber i < 2 ^ 16 := by
    have hlt := (encode i).isLt
    rw [encode_toNat] at hlt
    omega
  refine (and_highMask_eq_iff (operandBits i) _ _).2 ?_
  rw [encode_toNat, rowOf, BitVec.toNat_ofNat, Nat.mod_eq_of_lt hword, hm, Nat.mul_assoc,
    Nat.mul_add_div (Nat.two_pow_pos _), Nat.div_eq_of_lt (operandNumber_lt i), Nat.add_zero,
    Nat.mul_comm]

/-- Settles O3: legal words and words that match a row are the same runs of numbers. -/
theorem legalWordsAreThoseOfTheOpcodeMap : Obligations.LegalWordsAreThoseOfTheOpcodeMap := by
  unfold Obligations.LegalWordsAreThoseOfTheOpcodeMap
  refine fun w => ⟨(isLegal_iff_runs w).trans (matches_row_iff_runs w).symm, fun i h => ?_⟩
  obtain ⟨rfl, -⟩ := encode_of_decode h
  exact ⟨rowOf i, List.mem_of_getElem? (opcodeRows_getElem?_opcodeNumber i), rfl, encode_matches_rowOf i⟩

/-! ### The assembler (30_encoding.md R108, R109) -/

/-- A line is well formed when it is a pseudo-instruction or a well-formed operation. -/
def AsmLine.Wf : AsmLine → Prop
  | .op i => i.wf = true
  | _ => True

/-- A well-formed line stands for well-formed operations. -/
theorem AsmLine.Wf.expand {l : AsmLine} (h : l.Wf) : ∀ i ∈ l.expand, i.wf = true := by
  cases l with
  | op i => exact List.forall_mem_singleton.2 h
  | txbyte b a => exact List.forall_mem_map.2 fun _ _ => rfl
  | rxbytes bytes => exact List.forall_mem_map.2 fun _ _ => rfl
  | _ => simp [AsmLine.expand, bitEvent, Instr.wf]

theorem wf_of_map_eq_some {α : Type} {f : α → AsmLine} {o : Option α} {l : AsmLine}
    (h : o.map f = some l) (hf : ∀ a, (f a).Wf) : l.Wf := by
  obtain ⟨a, -, rfl⟩ := Option.map_eq_some_iff.1 h
  exact hf a

theorem lineForm_wf {f : Bool → Bool → Instr} {c d : Nat} {l : AsmLine}
    (hf : ∀ x y, (f x y).wf = true) (h : lineForm f c d = some l) : l.Wf := by
  unfold lineForm at h
  split at h <;> cases h
  exact hf _ _

theorem drainForm_wf {q : Nat} {l : AsmLine} (h : drainForm q = some l) : l.Wf := by
  unfold drainForm at h
  split at h <;> cases h
  rfl

/-- READ_STATUS assembles with an assigned selector only. -/
theorem statusForm_wf {n : Nat} {l : AsmLine} (h : statusForm n = some l) : l.Wf := by
  unfold statusForm at h
  split at h <;> cases h
  next hsel => exact hsel.2

/-- Every form of a line gives a well-formed one; the forms stand in the order of `lineOf`. -/
theorem lineOf_wf {mnemonic : String} {operands : List Nat} {l : AsmLine}
    (h : lineOf mnemonic operands = some l) : l.Wf := by
  unfold lineOf at h
  split at h
  case h_2 | h_3 | h_4 => exact lineForm_wf (fun _ _ => rfl) h
  case h_5 => exact wf_of_map_eq_some h fun _ => rfl
  case h_8 => exact drainForm_wf h
  case h_9 => exact statusForm_wf h
  case h_13 | h_18 | h_20 => exact wf_of_map_eq_some h fun _ => trivial
  case h_16 => split at h <;> cases h; trivial
  all_goals cases h -- the forms without an operand, and no form
  case h_1 | h_6 | h_7 | h_10 => rfl
  all_goals trivial

theorem assembleLine_wf {cs : List Char} {ops : List Instr} (h : assembleLine cs = some ops) :
    ∀ i ∈ ops, i.wf = true := by
  unfold assembleLine at h
  split at h
  · cases h
    exact List.forall_mem_nil _
  · split at h
    · cases h
    · obtain ⟨l, hl, rfl⟩ := Option.map_eq_some_iff.1 h
      exact (lineOf_wf hl).expand

/-- What `mapM` gives comes from the elements of the list. -/
theorem exists_of_mem_mapM {α β : Type} {f : α → Option β} {as : List α} {bs : List β}
    (h : as.mapM f = some bs) : ∀ b ∈ bs, ∃ a, f a = some b := by
  induction as generalizing bs with
  | nil =>
    cases h
    exact List.forall_mem_nil _
  | cons a as ih =>
    simp only [List.mapM_cons, Option.bind_eq_bind, Option.bind_eq_some_iff, Option.pure_def,
      Option.some.injEq] at h
    obtain ⟨b, hb, bs, hbs, rfl⟩ := h
    exact List.forall_mem_cons.2 ⟨⟨a, hb⟩, ih hbs⟩

/-- Settles O7: the words are those of well-formed operations. -/
theorem assemblerEmitsOnlyLegalWords : Obligations.AssemblerEmitsOnlyLegalWords := by
  unfold Obligations.AssemblerEmitsOnlyLegalWords
  intro lines ws h w hw
  obtain ⟨opss, hopss, rfl⟩ := Option.map_eq_some_iff.1 h
  obtain ⟨i, hi, rfl⟩ := List.mem_map.1 hw
  obtain ⟨ops, hops, hmem⟩ := List.mem_flatten.1 hi
  obtain ⟨cs, hcs⟩ := exists_of_mem_mapM hopss ops hops
  rw [decode_encode (assembleLine_wf hcs i hmem)]
  rfl

/-! ### Pseudo-instructions -/

/-- BIT d is the word 0x1002 + d. -/
theorem encode_bitEvent (d : Bool) : encode (bitEvent d) = 0x1002#16 + BitVec.ofNat 16 d.toNat := by
  cases d <;> rfl

/-- LINE_SAMPLE c, d is the word 0x3000 + 2c + d. -/
theorem encode_lineSample (c d : Bool) :
    encode (.lineSample c d) = (if c then 0x3002#16 else 0x3000#16) + BitVec.ofNat 16 d.toNat := by
  cases c <;> cases d <;> rfl

/-- RX_PUSH b is the word 0x4000 + b. -/
theorem encode_rxPush (b : Byte) : encode (.rxPush b) = 0x4000#16 + BitVec.ofNat 16 b.toNat := by
  have hb : b.toNat < 256 := b.isLt
  rw [← BitVec.toNat_inj, encode_toNat, BitVec.toNat_add, BitVec.toNat_ofNat, BitVec.toNat_ofNat,
    opcodeNumber, operandNumber]
  omega

/-- Settles O6: row by row of the table, with the words of BIT, LINE_SAMPLE and RX_PUSH. -/
theorem pseudoInstructionsExpandToTheirWords :
    Obligations.PseudoInstructionsExpandToTheirWords := by
  unfold Obligations.PseudoInstructionsExpandToTheirWords
  refine ⟨rfl, rfl, fun d => ?_, rfl, rfl, fun b a => ?_, rfl, fun d => ?_, rfl, fun bs => ?_, rfl⟩
  · exact congrArg (fun w => [w]) (encode_bitEvent d)
  · rw [AsmLine.expand, byteEvents, List.map_map]
    exact List.map_congr_left fun d _ => encode_bitEvent d
  · simp [AsmLine.expand, encode_lineSample]
  · rw [AsmLine.expand, List.map_map]
    exact List.map_congr_left fun b _ => encode_rxPush b

end Sys2Proof.Machine
end

section
/-! The bus events one by one: a clock rise in each of its cases (41_twi_decoder.md R134 to R139), a data
change (R140), and a line sample as the events derived from it (R147 to R149). -/

namespace Sys2Proof.Machine

open Sys2Proof

/-! ### The acknowledgment slot of each kind of byte -/

/-- A clock rise at bit index 8 is the acknowledgment slot. -/
theorem clkRise_of_slot {c d : Bool} {s : State} (hidle : s.idle = false) (hbit : s.bitcnt.toNat = 8) :
    clkRise c d s = ackSlot d s := by
  simp [clkRise, hidle, hbit]

/-- The slot of the address byte (41_twi_decoder.md R136). -/
theorem ackSlot_of_address {d : Bool} {s : State} (hidle : s.idle = false) (hbyte : s.bytecnt = 0#8) :
    ackSlot d s =
      { s with
        idle := d
        devaddr := if d then s.devaddr else s.shreg
        bytecnt := 1#8
        bitcnt := 0#4
        shreg := 0#8
        out := if d then s.out ++ [.report .twiAddrNack .diagnostic [s.shreg.toNat]] else s.out } := by
  have hinc : satInc8 s.bytecnt = 1#8 := by rw [hbyte]; rfl
  rw [← hinc, ackSlot, if_pos hbyte]
  cases d
  · simp [ackAddress, ackEnd, hidle]
  · rfl

/-- The slot of a write's pointer byte (41_twi_decoder.md R137). -/
theorem ackSlot_of_pointer {d : Bool} {s : State} (hidle : s.idle = false) (hbyte : s.bytecnt = 1#8)
    (hdir : s.dir = false) :
    ackSlot d s =
      { s with
        idle := d
        ptr := if d then s.ptr else BitVec.ofNat 8 (s.shreg.toNat % s.cfg.regN)
        bytecnt := 2#8
        bitcnt := 0#4
        shreg := 0#8
        out := if d then s.out ++ [.report .twiPtrNack .diagnostic [s.shreg.toNat]] else s.out } := by
  have hinc : satInc8 s.bytecnt = 2#8 := by rw [hbyte]; rfl
  have hne : s.bytecnt ≠ 0#8 := by rw [hbyte]; decide
  rw [← hinc, ackSlot, if_neg hne, if_pos ⟨hbyte, hdir⟩]
  cases d
  · simp [ackPointer, ackEnd, wrapN, hidle]
  · rfl

/-- What the slot of a data byte `b`, with acknowledgment `d`, makes of the state: the byte is stored
before the ACK/NACK test (41_twi_decoder.md R138, R139). -/
def storeDataByte (b : Byte) (d : Bool) (s : State) : State :=
  { s with
    img := s.img.write s.ptr.toNat b
    ptr := BitVec.ofNat 8 ((s.ptr.toNat + 1) % s.cfg.regN)
    idle := d
    bytecnt := satInc8 s.bytecnt
    bitcnt := 0#4
    shreg := 0#8 }

/-- The slot of a data byte stores the shift register. -/
theorem ackSlot_of_data {d : Bool} {s : State} (hidle : s.idle = false) (haddr : s.bytecnt ≠ 0#8)
    (hptr : ¬(s.bytecnt = 1#8 ∧ s.dir = false)) : ackSlot d s = storeDataByte s.shreg d s := by
  rw [ackSlot, if_neg haddr, if_neg hptr]
  cases d
  · simp [ackData, ackEnd, advancePointer, imgWrite, wrapN, storeDataByte, hidle]
  · rfl

/-! ### One clock rise -/

/-- Settles O27: `ClkRise` tests `idle` first. -/
theorem clkRiseIsIgnoredWhileIdle : Obligations.ClkRiseIsIgnoredWhileIdle := by
  unfold Obligations.ClkRiseIsIgnoredWhileIdle
  intro c d s hidle
  rw [exec_evClkRise, clkRise, if_pos hidle]

/-- Shifting a bit into a byte doubles it and adds the bit, modulo 256. -/
theorem shiftIn_eq_ofNat (v : Byte) (d : Bool) :
    shiftIn v d = BitVec.ofNat 8 (2 * v.toNat + d.toNat) := by
  have hd := d.toNat_lt
  rw [← BitVec.toNat_inj, shiftIn, toNat_append_eq_add, BitVec.extractLsb'_toNat,
    BitVec.toNat_ofBool, BitVec.toNat_ofNat, Nat.shiftRight_zero]
  omega

/-- Settles O28: the rise is a data bit, whose shift is a doubling. -/
theorem clkRiseShiftsInADataBit : Obligations.ClkRiseShiftsInADataBit := by
  unfold Obligations.ClkRiseShiftsInADataBit
  intro c d s hidle hbit
  have hdir : s.bytecnt = 0#8 ∧ s.bitcnt = 7#4 ↔ s.bytecnt.toNat = 0 ∧ s.bitcnt.toNat = 7 :=
    and_congr BitVec.toNat_inj.symm BitVec.toNat_inj.symm
  rw [exec_evClkRise, clkRise_of_bit hidle (by omega), ← shiftIn_eq_ofNat, BitVec.ofNat_add,
    BitVec.ofNat_toNat, BitVec.setWidth_eq]
  simp only [dataBit, hdir]
  rfl

/-- Settles O29, from the slot of the address byte. -/
theorem clkRiseEndsTheAddressByte : Obligations.ClkRiseEndsTheAddressByte := by
  unfold Obligations.ClkRiseEndsTheAddressByte
  intro c d s hidle hbit hbyte
  rw [exec_evClkRise, clkRise_of_slot hidle hbit,
    ackSlot_of_address hidle (BitVec.eq_of_toNat_eq hbyte)]

/-- Settles O30, from the slot of the pointer byte. -/
theorem clkRiseEndsThePointerByte : Obligations.ClkRiseEndsThePointerByte := by
  unfold Obligations.ClkRiseEndsThePointerByte
  intro c d s hidle hbit hbyte hdir
  rw [exec_evClkRise, clkRise_of_slot hidle hbit,
    ackSlot_of_pointer hidle (BitVec.eq_of_toNat_eq hbyte) hdir]

/-- The saturating increment as a byte. -/
theorem satInc8_eq_ofNat (v : BitVec 8) : satInc8 v = BitVec.ofNat 8 (min 255 (v.toNat + 1)) := by
  rw [← satInc8_toNat, BitVec.ofNat_toNat, BitVec.setWidth_eq]

/-- Settles O31: the slot of a data byte, and a read of the image after its write. -/
theorem clkRiseStoresADataByteBeforeTheNackTest :
    Obligations.ClkRiseStoresADataByteBeforeTheNackTest := by
  unfold Obligations.ClkRiseStoresADataByteBeforeTheNackTest
  intro c d s hinv hidle hbit haddr hptr
  have hslot : clkRise c d s = storeDataByte s.shreg d s := by
    rw [clkRise_of_slot hidle hbit]
    exact ackSlot_of_data hidle (fun h => haddr (congrArg BitVec.toNat h))
      fun h => hptr ⟨congrArg BitVec.toNat h.1, h.2⟩
  refine ⟨storeDataByte s.shreg d s, by rw [exec_evClkRise, hslot],
    fun a => Memory.read_write s.img s.ptr.toNat a s.shreg hinv.img, ?_⟩
  rw [← satInc8_eq_ofNat]
  rfl

/-! ### Sequences of operations -/

/-- Two lists of operations, one after the other. -/
theorem execAll_append_next {is js : List Instr} {s t u : State} (h : execAll is s = .next t)
    (h' : execAll js t = .next u) : execAll (is ++ js) s = .next u :=
  (execAll_append is js s t h).trans h'

theorem execAll_singleton (i : Instr) (s : State) : execAll [i] s = .next (effect i s) :=
  execAll_cons i [] s _ (exec_eq_effect i s)

/-! ### Data changes and line samples -/

/-- The word of an operation, from its opcode and its operand field. -/
theorem encode_eq_ofNat (i : Instr) :
    encode i = BitVec.ofNat 16 (4096 * opcodeNumber i + operandNumber i) := by
  rw [← encode_toNat, BitVec.ofNat_toNat, BitVec.setWidth_eq]

/-- Settles O32: one case of `DataChg` per clause. -/
theorem dataChgIsStartStopOrNothing : Obligations.DataChgIsStartStopOrNothing := by
  unfold Obligations.DataChgIsStartStopOrNothing
  refine ⟨fun c d => ?_, fun s => ⟨rfl, rfl, fun d => rfl⟩⟩
  rw [encode_eq_ofNat, opcodeNumber, operandNumber, ← Nat.add_assoc]

/-- An event that may be absent has its effect where it is there. -/
theorem execAll_ite_singleton (p : Prop) [Decidable p] (i : Instr) (s : State) :
    execAll (if p then [i] else []) s = .next (if p then effect i s else s) := by
  split
  · exact execAll_singleton i s
  · rfl

/-- Settles O33: the two events the front end may derive, the data change first. -/
theorem lineSampleIsItsDerivedEvents : Obligations.LineSampleIsItsDerivedEvents := by
  unfold Obligations.LineSampleIsItsDerivedEvents
  refine ⟨fun c d => ?_, fun c d s => ?_⟩
  · rw [encode_eq_ofNat, opcodeNumber, operandNumber, ← Nat.add_assoc]
  · refine ⟨_, execAll_append_next (execAll_ite_singleton _ _ s) (execAll_ite_singleton _ _ _), ?_⟩
    simp only [exec_lineSample, lineSampled, effect, bne_iff_ne, Bool.and_eq_true,
      Bool.not_eq_true']

end Sys2Proof.Machine
end

section
/-! What a whole write or read transaction leaves in the image (41_twi_decoder.md R151, R152): the setup
puts the decoder at the start of a data byte, every data byte is stored, and the end stores nothing. -/

namespace Sys2Proof.Machine

open Sys2Proof

/-! ### Clock rises of a transaction -/

/-- A list of operations keeps the invariants. -/
theorem execAll_inv {is : List Instr} {s t : State} (h : execAll is s = .next t) (hs : s.Inv) :
    t.Inv := by
  induction is generalizing s with
  | nil => cases h; exact hs
  | cons i is ih =>
    rw [execAll_cons i is s _ (exec_eq_effect i s)] at h
    exact ih h (effect_inv i s hs)

/-- Clock rises while idle have no effect. -/
theorem execAll_bitEvents_of_idle (ds : List Bool) (s : State) (hidle : s.idle = true) :
    execAll (ds.map bitEvent) s = .next s := by
  induction ds with
  | nil => rfl
  | cons d ds ih =>
    have hexec : exec (bitEvent d) s = .next s := clkRiseIsIgnoredWhileIdle true d s hidle
    rw [List.map_cons, execAll_cons _ _ _ _ hexec, ih]

/-- The nine clock rises of a byte: the slot, with the byte assembled. -/
theorem execAll_byteEvents (b : Byte) (d : Bool) (s : State) (hidle : s.idle = false)
    (hbit : s.bitcnt = 0#4) :
    execAll (byteEvents b d) s = .next (ackSlot d
      { s with
        shreg := b
        bitcnt := 8#4
        dir := if s.bytecnt = 0#8 then b.getLsbD 0 else s.dir }) := by
  rw [byteEvents, List.map_append]
  refine execAll_append_next (eightClockRisesAssembleTheByte s b hidle hbit) ?_
  rw [List.map_singleton, execAll_singleton, bitEvent, effect]
  exact congrArg Host.Outcome.next (clkRise_of_slot hidle rfl)

/-! ### The address and pointer bytes -/

/-- The state after START and an ACKed address byte. -/
def afterAddress (address : Byte) (s : State) : State :=
  { s with
    idle := false
    bitcnt := 0#4
    bytecnt := 1#8
    dir := address.getLsbD 0
    devaddr := address
    shreg := 0#8 }

theorem execAll_start_address (address : Byte) (s : State) :
    execAll ([.evDataChg true false] ++ byteEvents address false) s =
      .next (afterAddress address s) := by
  refine execAll_append_next (execAll_singleton _ s) ?_
  rw [execAll_byteEvents address false _ rfl rfl, ackSlot_of_address rfl rfl]
  rfl

/-- The state after the ACKed pointer byte of a write. -/
def afterPointer (address pointer : Byte) (s : State) : State :=
  { afterAddress address s with
    ptr := BitVec.ofNat 8 (pointer.toNat % s.cfg.regN)
    bytecnt := 2#8 }

@[simp] theorem afterPointer_cfg (address pointer : Byte) (s : State) :
    (afterPointer address pointer s).cfg = s.cfg := rfl

/-- The pointer byte, reduced modulo `REG_N`, fits the pointer. -/
theorem toNat_ptr_afterPointer (address pointer : Byte) (s : State) :
    (afterPointer address pointer s).ptr.toNat = pointer.toNat % s.cfg.regN :=
  Nat.mod_eq_of_lt ((Nat.mod_le _ _).trans_lt pointer.isLt)

theorem execAll_pointer (address pointer : Byte) (s : State) (hwrite : address.getLsbD 0 = false) :
    execAll (byteEvents pointer false) (afterAddress address s) =
      .next (afterPointer address pointer s) := by
  rw [execAll_byteEvents pointer false _ rfl rfl, ackSlot_of_pointer rfl rfl hwrite]
  rfl

/-! ### Data bytes -/

/-- A transaction is at the start of a data byte: the next byte is neither the address nor a write's
pointer. -/
structure AtDataByte (s : State) : Prop where
  idle : s.idle = false
  bitcnt : s.bitcnt = 0#4
  notAddress : s.bytecnt ≠ 0#8
  notPointer : ¬(s.bytecnt = 1#8 ∧ s.dir = false)

/-- After the address byte of a read come its data bytes. -/
theorem atDataByte_afterAddress {address : Byte} (s : State) (hread : address.getLsbD 0 = true) :
    AtDataByte (afterAddress address s) :=
  { idle := rfl
    bitcnt := rfl
    notAddress := by simp [afterAddress]
    notPointer := by simp [afterAddress, hread] }

/-- After the pointer byte of a write come its data bytes. -/
theorem atDataByte_afterPointer (address pointer : Byte) (s : State) :
    AtDataByte (afterPointer address pointer s) :=
  { idle := rfl
    bitcnt := rfl
    notAddress := by simp [afterPointer]
    notPointer := by simp [afterPointer] }

/-- The nine clock rises of a data byte store it. -/
theorem AtDataByte.execAll_dataByte {s : State} (h : AtDataByte s) (b : Byte) (d : Bool) :
    execAll (byteEvents b d) s = .next (storeDataByte b d s) := by
  rw [execAll_byteEvents b d s h.idle h.bitcnt, if_neg h.notAddress]
  exact congrArg Host.Outcome.next (ackSlot_of_data h.idle h.notAddress h.notPointer)

/-- After an ACKed data byte comes another data byte. -/
theorem AtDataByte.acked {s : State} (h : AtDataByte s) (b : Byte) :
    AtDataByte (storeDataByte b false s) := by
  have hpos : s.bytecnt.toNat ≠ 0 := fun e => h.notAddress (BitVec.eq_of_toNat_eq e)
  have hinc : 2 ≤ (satInc8 s.bytecnt).toNat := by rw [satInc8_toNat]; omega
  exact
    { idle := rfl
      bitcnt := rfl
      notAddress := fun (e : satInc8 s.bytecnt = 0#8) => by simp [e] at hinc
      notPointer := fun ⟨(e : satInc8 s.bytecnt = 1#8), _⟩ => by simp [e] at hinc }

/-! ### The image after a run of data bytes -/

/-- Storing more bytes after some: they go on from where the pointer stands. -/
theorem imageAfter_append (regN p : Nat) (ds es : List Byte) (old : Nat → Byte) (hp : p < regN) :
    imageAfter regN p (ds ++ es) old =
      imageAfter regN ((p + ds.length) % regN) es (imageAfter regN p ds old) := by
  induction ds generalizing p old with
  | nil => rw [List.nil_append, List.length_nil, Nat.add_zero, Nat.mod_eq_of_lt hp, imageAfter]
  | cons d ds ih =>
    rw [List.cons_append, imageAfter, imageAfter, ih _ _ (Nat.mod_lt _ (by omega)), Nat.mod_add_mod,
      List.length_cons, Nat.add_right_comm, Nat.add_assoc]

/-- From `s` to `t` the data bytes `ds` were stored from the pointer on; the configuration, the device
address, the output stream, the serial path and the windows are as before. -/
structure Stores (ds : List Byte) (s t : State) : Prop where
  img : (fun a => t.img.read a) = imageAfter s.cfg.regN s.ptr.toNat ds fun a => s.img.read a
  ptr : t.ptr.toNat = (s.ptr.toNat + ds.length) % s.cfg.regN
  cfg : t.cfg = s.cfg
  devaddr : t.devaddr = s.devaddr
  out : t.out = s.out
  serial : serialPart t = serialPart s
  win : t.win = s.win

/-- A change of the other fields of the decoder stores nothing. -/
theorem Stores.nil {s : State} (hs : s.Inv) (idle dir : Bool) (bitcnt : BitVec 4) (shreg : Byte) :
    Stores [] s { s with idle := idle, dir := dir, bitcnt := bitcnt, shreg := shreg } :=
  { img := rfl
    ptr := (Nat.mod_eq_of_lt hs.ptr).symm
    cfg := rfl, devaddr := rfl, out := rfl, serial := rfl, win := rfl }

theorem Stores.storeDataByte {s : State} (hs : s.Inv) (b : Byte) (d : Bool) :
    Stores [b] s (storeDataByte b d s) :=
  { img := funext fun a => Memory.read_write s.img s.ptr.toNat a b hs.img
    ptr := by
      obtain ⟨hpos, hle, -⟩ := (Config.wf_iff s.cfg).1 hs.cfg
      have hlt := Nat.mod_lt (s.ptr.toNat + 1) hpos
      exact Nat.mod_eq_of_lt (by omega)
    cfg := rfl, devaddr := rfl, out := rfl, serial := rfl, win := rfl }

/-- One run of data bytes after another. -/
theorem Stores.trans {ds es : List Byte} {s t u : State} (hs : s.Inv) (h : Stores ds s t)
    (h' : Stores es t u) : Stores (ds ++ es) s u :=
  { img := by rw [h'.img, h.img, h.cfg, h.ptr, imageAfter_append _ _ _ _ _ hs.ptr]
    ptr := by rw [h'.ptr, h.cfg, h.ptr, Nat.mod_add_mod, List.length_append, Nat.add_assoc]
    cfg := h'.cfg.trans h.cfg
    devaddr := h'.devaddr.trans h.devaddr
    out := h'.out.trans h.out
    serial := h'.serial.trans h.serial
    win := h'.win.trans h.win }

/-- ACKed data bytes are stored one after the other. -/
theorem AtDataByte.execAll_ackedBytes {s : State} (h : AtDataByte s) (hs : s.Inv) (ds : List Byte) :
    ∃ t, execAll (ackedBytes ds) s = .next t ∧ AtDataByte t ∧ Stores ds s t := by
  induction ds generalizing s with
  | nil => exact ⟨s, rfl, h, Stores.nil hs _ _ _ _⟩
  | cons d ds ih =>
    have hbyte := h.execAll_dataByte d false
    obtain ⟨t, hrest, ht, hstores⟩ := ih (h.acked d) (execAll_inv hbyte hs)
    refine ⟨t, ?_, ht, (Stores.storeDataByte hs d false).trans hs hstores⟩
    rw [ackedBytes, List.flatMap_cons]
    exact execAll_append_next hbyte hrest

/-- Data bits write the direction, the shift register and the bit counter only. -/
theorem foldl_dataBit_only (ds : List Bool) (s : State) :
    ∃ dir bitcnt shreg, ds.foldl (fun t d => dataBit d t) s =
      { s with dir := dir, bitcnt := bitcnt, shreg := shreg } := by
  refine List.foldlRecOn (motive := fun t : State => ∃ dir bitcnt shreg, t =
    { s with dir := dir, bitcnt := bitcnt, shreg := shreg }) ds _ ⟨_, _, _, rfl⟩ ?_
  rintro _ ⟨_, _, _, rfl⟩ d -
  exact ⟨_, _, _, rfl⟩

/-- Up to eight clock rises after the last data byte, then STOP: the unfinished byte is not stored. -/
theorem AtDataByte.execAll_extra_stop {s : State} (h : AtDataByte s) (hs : s.Inv) (extra : List Bool)
    (hextra : extra.length ≤ 8) :
    ∃ t, execAll (extra.map bitEvent ++ [.evDataChg true true]) s = .next t ∧ t.idle = true ∧
      Stores [] s t := by
  obtain ⟨dir, bitcnt, shreg, e⟩ := foldl_dataBit_only extra s
  have hbits := execAll_bitEvents extra s h.idle (by simpa [h.bitcnt] using hextra)
  rw [e] at hbits
  exact ⟨_, execAll_append_next hbits (execAll_singleton _ _), rfl, Stores.nil hs _ _ _ _⟩

/-! ### Transactions -/

/-- Settles O35: START, address and pointer set the pointer, the data bytes are stored from it on, and
the rest of the transaction stores nothing. -/
theorem writeTransactionFillsTheImage : Obligations.WriteTransactionFillsTheImage := by
  unfold Obligations.WriteTransactionFillsTheImage
  intro s address pointer ds extra hs hwrite hextra
  have hsetup := execAll_append_next (execAll_start_address address s)
    (execAll_pointer address pointer s hwrite)
  have hinv := execAll_inv hsetup hs
  obtain ⟨t, hdata, ht, hstores⟩ :=
    (atDataByte_afterPointer address pointer s).execAll_ackedBytes hinv ds
  obtain ⟨u, hend, hidle, hnil⟩ := ht.execAll_extra_stop (execAll_inv hdata hinv) extra hextra
  have hall : Stores ds (afterPointer address pointer s) u := by
    simpa using hstores.trans hinv hnil
  refine ⟨u, ?_, fun a => ?_, ?_, hall.devaddr, hidle, hall.out, hall.serial, hall.win⟩
  · rw [List.append_assoc]
    exact execAll_append_next (execAll_append_next hsetup hdata) hend
  · rw [congrFun hall.img a, toNat_ptr_afterPointer]
    rfl
  · rw [hall.ptr, toNat_ptr_afterPointer, afterPointer_cfg, Nat.mod_add_mod]

/-- Settles O36: the last byte is stored before its NACK ends the transaction, and the clock rises after
it find the decoder idle. -/
theorem readTransactionStoresTheNackedByte : Obligations.ReadTransactionStoresTheNackedByte := by
  unfold Obligations.ReadTransactionStoresTheNackedByte
  intro s address ds last extra hs hread
  have hsetup := execAll_start_address address s
  have hinv := execAll_inv hsetup hs
  obtain ⟨t, hdata, ht, hstores⟩ := (atDataByte_afterAddress s hread).execAll_ackedBytes hinv ds
  have htinv := execAll_inv hdata hinv
  have hlast := ht.execAll_dataByte last true
  have hall := hstores.trans hinv (Stores.storeDataByte htinv last true)
  refine ⟨stopCondition (storeDataByte last true t), ?_, fun a => ?_, ?_, hall.devaddr, rfl, hall.out,
    hall.serial, hall.win⟩
  · have hbits := execAll_bitEvents_of_idle extra (storeDataByte last true t) rfl
    exact execAll_append_next (execAll_append_next (execAll_append_next
      (execAll_append_next hsetup hdata) hlast) hbits) (execAll_singleton _ _)
  · exact congrFun hall.img a
  · rw [stopCondition_ptr, hall.ptr, List.length_append]
    rfl

end Sys2Proof.Machine
end

section
/-! The frame synchronizer (42_frame_sync.md): what a polling pass does with the FIFO (R179 to R181), the
checksum (R172), one byte (R173 to R177), and whole frames (R182, R183). -/

namespace Sys2Proof.Machine

open Sys2Proof

/-! ### Without a byte source (42_frame_sync.md R181) -/

theorem receiveByte_of_detached {s : State} (h : s.cfg.serAttached = false) (b : Byte) :
    receiveByte b s = s := by
  simp [receiveByte, h]

theorem serialPass_of_detached {s : State} (h : s.cfg.serAttached = false) : serialPass s = s := by
  simp [serialPass, h]

theorem stateAfterInit_of_detached {s : State} (h : s.cfg.serAttached = false) :
    stateAfterInit s = emitReport .serMisconfig .warning [] (setMisconfig (resetState s)) := by
  simp [stateAfterInit, h]

/-- Settles O38, operation by operation. -/
theorem serialPathIsANoOpWithoutASource : Obligations.SerialPathIsANoOpWithoutASource := by
  unfold Obligations.SerialPathIsANoOpWithoutASource
  refine fun s hsrc => ⟨fun b => ?_, ?_, _, exec_eq_effect .init s, ?_⟩
  · rw [exec_rxPush, receiveByte_of_detached hsrc]
  · rw [exec_serPoll, serialPass_of_detached hsrc]
  · rw [effect, stateAfterInit_of_detached hsrc]
    rfl

/-! ### RX_PUSH (42_frame_sync.md R178) -/

/-- Settles O37, in the order of the tests of RX_PUSH. -/
theorem rxPushQueuesOrDropsTheByte : Obligations.RxPushQueuesOrDropsTheByte := by
  unfold Obligations.RxPushQueuesOrDropsTheByte
  refine fun b s => ⟨encode_eq_ofNat (.rxPush b), ?_⟩
  rw [exec_rxPush]
  cases hsrc : s.cfg.serAttached
  · rw [receiveByte_of_detached hsrc, if_pos rfl]
  · rw [receiveByte, if_pos hsrc]
    rfl

/-! ### The polling pass (42_frame_sync.md R179, R180) -/

theorem skipBacklog_of_le {s : State} (h : s.rxq.length ≤ s.cfg.backlogKeep) : skipBacklog s = s := by
  rw [skipBacklog_eq, if_neg (Nat.not_lt.2 h)]

/-- After the skip there is nothing more to skip. -/
theorem skipBacklog_skipBacklog (s : State) : skipBacklog (skipBacklog s) = skipBacklog s := by
  refine skipBacklog_of_le ?_
  rw [skipBacklog_eq]
  split
  · simp only [List.length_drop]
    omega
  · omega

theorem skipBacklog_cfg (s : State) : (skipBacklog s).cfg = s.cfg := by
  rw [skipBacklog_eq]
  split <;> rfl

/-- A polling pass is a polling pass on what the skip leaves. -/
theorem serialPass_skipBacklog {s : State} (hsrc : s.cfg.serAttached = true) :
    serialPass (skipBacklog s) = serialPass s := by
  rw [serialPass_eq, serialPass_eq, skipBacklog_cfg, skipBacklog_skipBacklog, if_pos hsrc,
    if_pos hsrc]

/-- Where no byte is skipped, the pass is the byte steps of the waiting bytes, oldest first. -/
theorem serialPass_of_le {s : State} (hsrc : s.cfg.serAttached = true)
    (h : s.rxq.length ≤ s.cfg.backlogKeep) :
    serialPass s = s.rxq.foldl (fun t b => syncByte b t) { s with rxq := [] } := by
  rw [serialPass_eq, if_pos hsrc, skipBacklog_of_le h]

/-- An empty FIFO makes the pass a no-op. -/
theorem serialPass_of_empty {s : State} (h : s.rxq = []) : serialPass s = s := by
  cases hsrc : s.cfg.serAttached
  · exact serialPass_of_detached hsrc
  · rw [serialPass_of_le hsrc (by simp [h]), h, List.foldl_nil, ← h]

theorem syncByte_cfg (b : Byte) (s : State) : (syncByte b s).cfg = s.cfg := by
  obtain ⟨_, _, _, _, _, e⟩ := syncByte_only b s
  rw [e]

theorem foldl_syncByte_rxq (bytes : List Byte) (s : State) :
    (bytes.foldl (fun t b => syncByte b t) s).rxq = s.rxq := by
  refine List.foldlRecOn (motive := fun t : State => t.rxq = s.rxq) bytes _ rfl fun t ht b _ => ?_
  obtain ⟨_, _, _, _, _, e⟩ := syncByte_only b t
  rw [e, ← ht]

theorem State.Inv.emptyFifo {s : State} (h : s.Inv) : State.Inv { s with rxq := [] } :=
  { h with rxq := Nat.zero_le _ }

theorem foldl_syncByte_inv (bytes : List Byte) {s : State} (h : s.Inv) :
    (bytes.foldl (fun t b => syncByte b t) s).Inv :=
  List.foldlRecOn bytes _ h fun t ht b _ => syncByte_inv b t ht

theorem serialPass_rxq {s : State} (hsrc : s.cfg.serAttached = true) : (serialPass s).rxq = [] := by
  rw [serialPass_eq, if_pos hsrc]
  exact foldl_syncByte_rxq _ _

/-- Settles O39: the pass sees what the skip leaves, and ends on an empty FIFO, where a pass is a
no-op. -/
theorem serPollKeepsTheNewestAndEmptiesTheFifo :
    Obligations.SerPollKeepsTheNewestAndEmptiesTheFifo := by
  unfold Obligations.SerPollKeepsTheNewestAndEmptiesTheFifo
  refine fun s hsrc => ⟨fun hmany => ?_, serialPass s, rfl, serialPass_rxq hsrc, ?_⟩
  · rw [exec_serPoll, ← serialPass_skipBacklog hsrc, skipBacklog_eq, if_pos hmany, exec_serPoll]
  · rw [exec_serPoll, serialPass_of_empty (serialPass_rxq hsrc)]

/-- Settles O40: the pass on b alone is its byte step, and the pass on all goes on from there. -/
theorem serPollTakesBytesOldestFirst : Obligations.SerPollTakesBytesOldestFirst := by
  unfold Obligations.SerPollTakesBytesOldestFirst
  intro s b rest hrxq hfew
  refine ⟨_, exec_serPoll _, fun hsrc => ?_⟩
  have hkeep : rest.length + 1 ≤ s.cfg.backlogKeep := by simpa [hrxq] using hfew
  have hone : serialPass { s with rxq := [b] } = { syncByte b s with rxq := [] } :=
    (serialPass_of_le (s := { s with rxq := [b] }) hsrc (Nat.le_of_add_left_le hkeep)).trans
      (syncByte_rxq b [] s)
  have hrest : serialPass { syncByte b s with rxq := rest } =
      rest.foldl (fun t b => syncByte b t) { syncByte b s with rxq := [] } :=
    serialPass_of_le (s := { syncByte b s with rxq := rest }) ((syncByte_cfg b s).symm ▸ hsrc)
      ((syncByte_cfg b s).symm ▸ Nat.le_of_succ_le hkeep)
  rw [hone, exec_serPoll, exec_serPoll, hrest, serialPass_of_le hsrc hfew, hrxq, List.foldl_cons,
    syncByte_rxq]

/-! ### The checksum (42_frame_sync.md R172) -/

@[simp] theorem byteSum_append (f g : List Byte) : byteSum (f ++ g) = byteSum f + byteSum g := by
  simp [byteSum]

@[simp] theorem byteSum_cons (b : Byte) (f : List Byte) :
    byteSum (b :: f) = b.toNat + byteSum f := by
  simp [byteSum]

@[simp] theorem byteSum_nil : byteSum [] = 0 := rfl

/-- Writing a byte changes the sum by the difference to the byte it replaces. -/
theorem byteSum_set (f : List Byte) (k : Nat) (b : Byte) (hk : k < f.length) :
    byteSum (f.set k b) + f[k].toNat = byteSum f + b.toNat := by
  have hsplit : f = f.take k ++ f[k] :: f.drop (k + 1) := by simp
  rw [List.set_eq_take_append_cons_drop, if_pos hk]
  conv_rhs => rw [hsplit]
  simp only [byteSum_append, byteSum_cons]
  omega

/-- The sum of a list of bytes with its last byte apart. -/
theorem byteSum_eq_take_add_getD {n : Nat} {f : List Byte} (hn : 1 ≤ n) (hf : f.length = n) :
    byteSum f = byteSum (f.take (n - 1)) + (f.getD (n - 1) 0#8).toNat := by
  have hlast : n - 1 < f.length := by omega
  have hsplit : f.take (n - 1) ++ [f.getD (n - 1) 0#8] = f := by
    rw [List.getD_eq_getElem _ _ hlast, List.take_concat_get', List.take_of_length_le (by omega)]
  conv_lhs => rw [← hsplit]
  simp

theorem checksum_toNat (c : Config) (f : List Byte) :
    (checksum c f).toNat = (256 - byteSum (f.take (c.frameLen - 1)) % 256) % 256 := by
  rw [checksum, BitVec.toNat_ofNat, Nat.mod_eq_of_lt (Nat.mod_lt _ (by decide))]

/-- The last byte is the checksum exactly when all bytes sum to 0 modulo 256. -/
theorem getD_eq_checksum_iff {c : Config} {f : List Byte} (hlen : 1 ≤ c.frameLen)
    (hf : f.length = c.frameLen) :
    f.getD (c.frameLen - 1) 0#8 = checksum c f ↔ byteSum f % 256 = 0 := by
  have hlast := (f.getD (c.frameLen - 1) 0#8).isLt
  rw [← BitVec.toNat_inj, checksum_toNat, byteSum_eq_take_add_getD hlen hf]
  omega

/-- Settles O42. -/
theorem checksumHoldsExactlyWhenTheSumIsZero :
    Obligations.ChecksumHoldsExactlyWhenTheSumIsZero := by
  unfold Obligations.ChecksumHoldsExactlyWhenTheSumIsZero
  exact fun c f hlen hf => getD_eq_checksum_iff hlen hf

/-! ### The end of a frame (42_frame_sync.md R176, R177) -/

section
variable {s : State}

/-- A valid frame gives its samples. -/
theorem frameDone_of_valid (hlen : 1 ≤ s.cfg.frameLen) (hbuf : s.fbuf.length = s.cfg.frameLen)
    (hsum : byteSum s.fbuf % 256 = 0) :
    frameDone s =
      { Quantity.all.foldl (fun t q => appendFrameSample q t) s with fpos := 0#4 } := by
  rw [frameDone, fbufRead, if_pos ((getD_eq_checksum_iff hlen hbuf).2 hsum)]

/-- A frame that is not valid is discarded and reported. -/
theorem frameDone_of_invalid (hlen : 1 ≤ s.cfg.frameLen) (hbuf : s.fbuf.length = s.cfg.frameLen)
    (hsum : byteSum s.fbuf % 256 ≠ 0) :
    frameDone s =
      { s with
        fpos := 0#4
        out := s.out ++
          [.report .serChecksumMismatch .diagnostic
            [(s.fbuf.getD (s.cfg.frameLen - 1) 0#8).toNat,
              (256 - byteSum (s.fbuf.take (s.cfg.frameLen - 1)) % 256) % 256]] } := by
  rw [frameDone, fbufRead, if_neg fun h => hsum ((getD_eq_checksum_iff hlen hbuf).1 h),
    checksum_toNat]
  rfl

end

/-- The samples of a frame, as a fold of any function that does what `appendFrameSample` does where the
configuration is `c` and the frame is `f`: no sample changes either. -/
theorem foldl_appendFrameSample_congr {c : Config} {f : List Byte} {g : State → Quantity → State}
    (hg : ∀ q t, t.cfg = c → t.fbuf = f → appendFrameSample q t = g t q) (qs : List Quantity)
    {s : State} (hcfg : s.cfg = c) (hbuf : s.fbuf = f) :
    qs.foldl (fun t q => appendFrameSample q t) s = qs.foldl g s := by
  induction qs generalizing s with
  | nil => rfl
  | cons q qs ih =>
    obtain ⟨_, _, _, e⟩ := appendFrameSample_only q s
    rw [List.foldl_cons, List.foldl_cons, ← hg q s hcfg hbuf]
    exact ih (by rw [e, hcfg]) (by rw [e, hbuf])

/-! ### One byte (42_frame_sync.md R173) -/

/-- Settles O41, one case per branch of `SyncByte`. -/
theorem serPollOfOneByteIsTheByteStep : Obligations.SerPollOfOneByteIsTheByteStep := by
  unfold Obligations.SerPollOfOneByteIsTheByteStep
  intro s b hinv hsrc hrxq
  obtain ⟨-, -, -, hhdr, -, -, -, hkeep, -⟩ := (Config.wf_iff s.cfg).1 hinv.cfg
  have hone : serialPass s = syncByte b { s with rxq := [] } := by
    rw [serialPass_of_le hsrc (by simpa [hrxq] using hkeep), hrxq, List.foldl_cons, List.foldl_nil]
  dsimp only
  rw [exec_serPoll, hone, ← fpos_add_one]
  rcases syncByte_branches b s with ⟨hk, hb⟩ | ⟨hk, hb⟩ | ⟨hk, hf⟩ | ⟨hk, hf⟩
  · rw [syncByte_of_header (s := { s with rxq := [] }) hk hb, if_pos hk, if_pos hb]
  · rw [syncByte_of_mismatch (s := { s with rxq := [] }) hk hb, headerMismatch_eq, if_pos hk, if_neg hb]
    simp only [Nat.pos_iff_ne_zero, ite_not]
  · rw [syncByte_of_body (s := { s with rxq := [] }) hk hf, if_neg (by omega), if_pos hf]
  · rw [syncByte_of_last (s := { s with rxq := [] }) hk hf, if_neg (by omega), if_neg (by omega)]
    have hlen : 1 ≤ s.cfg.frameLen := by omega
    have hbuf : (s.fbuf.set s.fpos.toNat b).length = s.cfg.frameLen := by simpa using hinv.fbuf
    have hlast : s.cfg.frameLen - 1 = s.fpos.toNat := by have := hinv.fpos; omega
    split
    · rename_i hsum
      rw [frameDone_of_valid (s := { s with rxq := [], fbuf := _ }) hlen hbuf hsum,
        foldl_appendFrameSample_congr (fun q t hcfg hfbuf => ?_) Quantity.all rfl rfl]
      rw [appendFrameSample, hcfg]
      cases s.cfg.src.get q with
      | ser o => exact congrArg (fun f => winAppend q (fieldOf f o) t) hfbuf
      | twi i => rfl
      | none => rfl
    · rename_i hsum
      have hreceived : (s.fbuf.set s.fpos.toNat b).getD (s.cfg.frameLen - 1) 0#8 = b := by
        rw [hlast, List.getD_eq_getElem _ _ (by omega), List.getElem_set_self]
      rw [frameDone_of_invalid (s := { s with rxq := [], fbuf := _ }) hlen hbuf hsum]
      dsimp only
      rw [hreceived]

/-! ### The bytes of a frame -/

/-- A byte that is the next of the header, or comes after it, and is not the last of the frame is
stored. -/
theorem syncByte_of_accepted {b : Byte} {s : State}
    (hb : s.fpos.toNat < s.cfg.hdrLen → s.cfg.hdr[s.fpos.toNat]? = some b)
    (hf : s.fpos.toNat + 1 < s.cfg.frameLen) :
    syncByte b s = { s with fbuf := s.fbuf.set s.fpos.toNat b, fpos := s.fpos + 1#4 } := by
  rcases Nat.lt_or_ge s.fpos.toNat s.cfg.hdrLen with hk | hk
  · exact syncByte_of_header hk (hb hk)
  · exact syncByte_of_body hk hf

/-- Writing the next byte of `f` behind its first n. -/
theorem set_take_append_drop {α : Type} {f buf : List α} {n : Nat} (hn : n < f.length)
    (hlen : f.length = buf.length) :
    (f.take n ++ buf.drop n).set n f[n] = f.take (n + 1) ++ buf.drop (n + 1) := by
  rw [List.set_append_right _ _ (by simp), List.length_take_of_le hn.le, Nat.sub_self,
    List.drop_eq_getElem_cons (hlen ▸ hn), List.set_cons_zero, ← List.take_concat_get' f n hn,
    List.append_assoc]
  rfl

/-- A list of bytes that fills a frame and begins with the header: the synchronizer accepts each
(42_frame_sync.md R171). -/
structure FrameShaped (c : Config) (f : List Byte) : Prop where
  length : f.length = c.frameLen
  header : f.take c.hdrLen = c.hdr

theorem FrameShaped.getElem?_hdr {c : Config} {f : List Byte} (h : FrameShaped c f) {n : Nat}
    (hn : n < f.length) (hk : n < c.hdrLen) : c.hdr[n]? = some f[n] := by
  rw [← h.header, List.getElem?_take_of_lt hk, List.getElem?_eq_getElem hn]

/-- An index into a frame fits `fpos`. -/
theorem toNat_ofNat_of_lt_frameLen {s : State} (hinv : s.Inv) {n : Nat} (hn : n < s.cfg.frameLen) :
    (BitVec.ofNat 4 n).toNat = n := by
  obtain ⟨-, -, -, -, h16, -⟩ := (Config.wf_iff s.cfg).1 hinv.cfg
  rw [BitVec.toNat_ofNat, Nat.mod_eq_of_lt (by omega)]

/-- The first n bytes of a frame are collected. -/
theorem foldl_syncByte_take {s : State} {f : List Byte} (hinv : s.Inv) (hpos : s.fpos = 0#4)
    (hf : FrameShaped s.cfg f) (n : Nat) (hn : n < s.cfg.frameLen) :
    (f.take n).foldl (fun t b => syncByte b t) s =
      { s with fbuf := f.take n ++ s.fbuf.drop n, fpos := BitVec.ofNat 4 n } := by
  induction n with
  | zero => simp [← hpos]
  | succ n ih =>
    have hlt : n < f.length := by rw [hf.length]; omega
    have hfpos := toNat_ofNat_of_lt_frameLen hinv (Nat.lt_of_succ_lt hn)
    rw [← List.take_concat_get' f n hlt, List.foldl_append, ih (by omega), List.foldl_cons,
      List.foldl_nil, syncByte_of_accepted] <;> simp only [hfpos]
    · rw [fpos_add_one, hfpos, set_take_append_drop hlt (hf.length.trans hinv.fbuf.symm),
        List.take_concat_get']
    · exact hf.getElem?_hdr hlt
    · exact hn

/-- The frame `f` fills the frame buffer, and `fpos` is still at its last byte. -/
def withFrame (f : List Byte) (s : State) : State :=
  { s with fbuf := f, fpos := BitVec.ofNat 4 (s.cfg.frameLen - 1) }

/-- The bytes of a frame fill the frame buffer, and the frame is done. -/
theorem foldl_syncByte_frame {s : State} {f : List Byte} (hinv : s.Inv) (hpos : s.fpos = 0#4)
    (hf : FrameShaped s.cfg f) :
    f.foldl (fun t b => syncByte b t) s = frameDone (withFrame f s) := by
  obtain ⟨-, -, -, hhdr, -⟩ := (Config.wf_iff s.cfg).1 hinv.cfg
  have hlast : s.cfg.frameLen - 1 < s.cfg.frameLen := by omega
  have hn : s.cfg.frameLen - 1 < f.length := hf.length ▸ hlast
  have hfpos := toNat_ofNat_of_lt_frameLen hinv hlast
  have hfull : s.cfg.frameLen - 1 + 1 = f.length := by rw [hf.length]; omega
  have hsplit : f = f.take (s.cfg.frameLen - 1) ++ [f[s.cfg.frameLen - 1]] := by
    rw [List.take_concat_get', hfull, List.take_length]
  conv_lhs => rw [hsplit]
  rw [List.foldl_append, foldl_syncByte_take hinv hpos hf _ hlast, List.foldl_cons, List.foldl_nil,
    syncByte_of_last] <;> simp only [hfpos]
  · rw [set_take_append_drop hn (hf.length.trans hinv.fbuf.symm), hfull, List.take_length,
      List.drop_of_length_le (by rw [hf.length, hinv.fbuf]), List.append_nil]
    rfl
  · omega
  · omega

/-! ### A corrupted frame (42_frame_sync.md R183) -/

/-- A changed byte after the header leaves the frame its length and its header. -/
theorem FrameShaped.set {c : Config} {f : List Byte} (h : FrameShaped c f) {k : Nat} (b : Byte)
    (hk : c.hdrLen ≤ k) : FrameShaped c (f.set k b) :=
  { length := by simpa using h.length
    header := by rw [List.take_set_of_le hk, h.header] }

/-- One changed byte changes the sum modulo 256. -/
theorem byteSum_set_mod_ne {f : List Byte} {k : Nat} {b : Byte} (hk : k < f.length)
    (hb : f[k]? ≠ some b) (hsum : byteSum f % 256 = 0) : byteSum (f.set k b) % 256 ≠ 0 := by
  have hne : f[k].toNat ≠ b.toNat := fun h =>
    hb (by rw [List.getElem?_eq_getElem hk, BitVec.eq_of_toNat_eq h])
  have hset := byteSum_set f k b hk
  have hold := f[k].isLt
  have hnew := b.isLt
  omega

/-- Settles O44: the changed bytes still have the shape of a frame, and their sum is not 0. -/
theorem corruptedFrameIsDiscarded : Obligations.CorruptedFrameIsDiscarded := by
  unfold Obligations.CorruptedFrameIsDiscarded
  rintro s f k b hinv hsrc hpos ⟨hlen, hhdr, hsum⟩ hk hklt hb hrxq hfew
  have hshape := FrameShaped.set ⟨hlen, hhdr⟩ b hk
  rw [exec_serPoll, serialPass_of_le hsrc hfew, hrxq, foldl_syncByte_frame hinv.emptyFifo hpos hshape,
    frameDone_of_invalid (s := withFrame _ { s with rxq := [] }) (Nat.one_le_of_lt hklt) hshape.length
      (byteSum_set_mod_ne (hlen ▸ hklt) hb hsum)]
  rfl

/-! ### Valid frames (42_frame_sync.md R182) -/

/-- The synchronizer took `s` to `t`: the samples `v q` were appended to the window of each quantity q
with room for them, nothing was reported where every window has room, and nothing outside the search,
the windows, `f_winovf` and the output stream changed. -/
structure Appends (v : Quantity → List RawSample) (s t : State) : Prop where
  win : ∀ q, (s.win.get q).length + (v q).length ≤ s.cfg.wCap → t.win.get q = s.win.get q ++ v q
  quiet : (∀ q, (s.win.get q).length + (v q).length ≤ s.cfg.wCap) →
    t.out = s.out ∧ t.fWinovf = s.fWinovf
  only : t =
    { s with fpos := t.fpos, fbuf := t.fbuf, win := t.win, fWinovf := t.fWinovf, out := t.out }

/-- The search goes on and nothing is appended. -/
theorem Appends.nil (s : State) (p : BitVec 4) (buf : List Byte) :
    Appends (fun _ => []) s { s with fpos := p, fbuf := buf } :=
  { win := fun _ _ => (List.append_nil _).symm
    quiet := fun _ => ⟨rfl, rfl⟩
    only := rfl }

theorem Appends.congr {v w : Quantity → List RawSample} {s t : State} (h : Appends v s t)
    (hvw : ∀ q, v q = w q) : Appends w s t := funext hvw ▸ h

theorem Appends.cfg {v : Quantity → List RawSample} {s t : State} (h : Appends v s t) :
    t.cfg = s.cfg := by
  rw [h.only]

theorem Appends.trans {v w : Quantity → List RawSample} {s t u : State} (h : Appends v s t)
    (h' : Appends w t u) : Appends (fun q => v q ++ w q) s u := by
  have hroom : ∀ q, (s.win.get q).length + (v q ++ w q).length ≤ s.cfg.wCap →
      (s.win.get q).length + (v q).length ≤ s.cfg.wCap ∧
        (t.win.get q).length + (w q).length ≤ t.cfg.wCap := by
    intro q hq
    rw [List.length_append, ← Nat.add_assoc] at hq
    have hfirst := Nat.le_of_add_right_le hq
    exact ⟨hfirst, by rw [h.cfg, h.win q hfirst, List.length_append]; exact hq⟩
  refine { win := fun q hq => ?_, quiet := fun hall => ?_, only := ?_ }
  · obtain ⟨hfirst, hsecond⟩ := hroom q hq
    rw [h'.win q hsecond, h.win q hfirst, List.append_assoc]
  · obtain ⟨hout, hovf⟩ := h.quiet fun q => (hroom q (hall q)).1
    obtain ⟨hout', hovf'⟩ := h'.quiet fun q => (hroom q (hall q)).2
    exact ⟨hout'.trans hout, hovf'.trans hovf⟩
  · rw [h'.only, h.only]

theorem winAppend_appends (q : Quantity) (v : RawSample) (s : State) :
    Appends (fun r => if r = q then [v] else []) s (winAppend q v s) := by
  rcases winAppend_cases q v s with ⟨hroom, e⟩ | ⟨hfull, e⟩ <;> rw [e]
  · refine { win := fun r _ => ?_, quiet := fun _ => ⟨rfl, rfl⟩, only := rfl }
    dsimp only
    rw [PerQuantity.get_set]
    split
    · rename_i hr
      rw [hr]
    · rw [List.append_nil]
  · refine { win := fun r hr => ?_, quiet := fun hall => ?_, only := rfl }
    · have hne : r ≠ q := by
        rintro rfl
        rw [if_pos rfl, List.length_singleton] at hr
        omega
      rw [if_neg hne, List.append_nil]
    · have hq := hall q
      rw [if_pos rfl, List.length_singleton] at hq
      omega

/-- The samples a frame has for quantity q (42_frame_sync.md R177). -/
def frameSamples (c : Config) (f : List Byte) (q : Quantity) : List RawSample :=
  match c.src.get q with
  | .ser o => [fieldOf f o]
  | .twi _ => []
  | .none => []

theorem frameSamples_of_ser {c : Config} {q : Quantity} {o : Nat} (h : c.src.get q = .ser o)
    (f : List Byte) : frameSamples c f q = [fieldOf f o] := by
  simp only [frameSamples, h]

theorem frameSamples_of_not_ser {c : Config} {q : Quantity} (h : ∀ o, c.src.get q ≠ .ser o)
    (f : List Byte) : frameSamples c f q = [] := by
  unfold frameSamples
  split
  · rename_i o hsrc
    exact absurd hsrc (h o)
  · rfl
  · rfl

/-- One quantity's part of a valid frame. -/
theorem appendFrameSample_appends (q : Quantity) (s : State) :
    Appends (fun r => if r = q then frameSamples s.cfg s.fbuf q else []) s (appendFrameSample q s) := by
  by_cases h : ∃ o, s.cfg.src.get q = .ser o
  · obtain ⟨o, hsrc⟩ := h
    rw [appendFrameSample_of_ser hsrc, frameSamples_of_ser hsrc]
    exact winAppend_appends q _ s
  · have hsrc := not_exists.1 h
    rw [appendFrameSample_of_not_ser hsrc, frameSamples_of_not_ser hsrc]
    simpa only [ite_self] using Appends.nil s s.fpos s.fbuf

/-- The parts of different quantities, one after the other. -/
theorem foldl_appendFrameSample_appends (qs : List Quantity) (hqs : qs.Nodup) (s : State) :
    Appends (fun r => if r ∈ qs then frameSamples s.cfg s.fbuf r else []) s
      (qs.foldl (fun t q => appendFrameSample q t) s) := by
  induction qs generalizing s with
  | nil => simpa using Appends.nil s s.fpos s.fbuf
  | cons q qs ih =>
    obtain ⟨hq, hqs⟩ := List.nodup_cons.1 hqs
    have hrest := ih hqs (appendFrameSample q s)
    obtain ⟨_, _, _, e⟩ := appendFrameSample_only q s
    have hcfg : (appendFrameSample q s).cfg = s.cfg := by rw [e]
    have hbuf : (appendFrameSample q s).fbuf = s.fbuf := by rw [e]
    rw [hcfg, hbuf] at hrest
    refine ((appendFrameSample_appends q s).trans hrest).congr fun r => ?_
    by_cases hr : r = q
    · rw [if_pos hr, if_neg (hr ▸ hq), if_pos (hr ▸ List.mem_cons_self), hr, List.append_nil]
    · simp [hr]

/-- A valid frame gives the samples of every serial source, and the search is back at `fpos` 0. -/
theorem foldl_syncByte_validFrame {s : State} {f : List Byte} (hinv : s.Inv) (hpos : s.fpos = 0#4)
    (hf : validFrame s.cfg f) :
    (f.foldl (fun t b => syncByte b t) s).fpos = 0#4 ∧
      Appends (frameSamples s.cfg f) s (f.foldl (fun t b => syncByte b t) s) := by
  obtain ⟨hlen, hhdr, hsum⟩ := hf
  have hpositive : 1 ≤ s.cfg.frameLen := Nat.one_le_of_lt hinv.fpos
  rw [foldl_syncByte_frame hinv hpos ⟨hlen, hhdr⟩, 
    frameDone_of_valid (s := withFrame f s) hpositive hlen hsum]
  refine ⟨rfl, ?_⟩
  have hsearch := Appends.nil s (BitVec.ofNat 4 (s.cfg.frameLen - 1)) f
  have hsamples := foldl_appendFrameSample_appends Quantity.all (by decide) (withFrame f s)
  refine ((hsearch.trans hsamples).trans (Appends.nil _ 0#4 _)).congr fun q => ?_
  rw [List.nil_append, List.append_nil, if_pos (Quantity.mem_all q)]
  rfl

/-- The samples that frames have for quantity q, in their order. -/
def framesSamples (c : Config) (frames : List (List Byte)) (q : Quantity) : List RawSample :=
  frames.flatMap fun f => frameSamples c f q

theorem framesSamples_of_ser {c : Config} {q : Quantity} {o : Nat} (h : c.src.get q = .ser o)
    (frames : List (List Byte)) : framesSamples c frames q = frames.map fun f => fieldOf f o := by
  simp only [framesSamples, frameSamples_of_ser h, List.map_eq_flatMap]

theorem framesSamples_of_not_ser {c : Config} {q : Quantity} (h : ∀ o, c.src.get q ≠ .ser o)
    (frames : List (List Byte)) : framesSamples c frames q = [] := by
  simp [framesSamples, frameSamples_of_not_ser h]

/-- Valid frames one after the other: each is found where the one before it ended. -/
theorem foldl_syncByte_validFrames (frames : List (List Byte)) {s : State} (hinv : s.Inv)
    (hpos : s.fpos = 0#4) (hvalid : ∀ f ∈ frames, validFrame s.cfg f) :
    (frames.flatten.foldl (fun t b => syncByte b t) s).fpos = 0#4 ∧
      Appends (framesSamples s.cfg frames) s
        (frames.flatten.foldl (fun t b => syncByte b t) s) := by
  induction frames generalizing s with
  | nil => exact ⟨hpos, Appends.nil s s.fpos s.fbuf⟩
  | cons f frames ih =>
    obtain ⟨hf, hvalid⟩ := List.forall_mem_cons.1 hvalid
    obtain ⟨hpos', hfirst⟩ := foldl_syncByte_validFrame hinv hpos hf
    obtain ⟨hpos'', hrest⟩ := ih (foldl_syncByte_inv f hinv) hpos' (hfirst.cfg ▸ hvalid)
    rw [hfirst.cfg] at hrest
    rw [List.flatten_cons, List.foldl_append]
    exact ⟨hpos'', hfirst.trans hrest⟩

/-- A quantity without a serial source has room for its samples: there are none. -/
theorem State.Inv.room_of_not_ser {s : State} (h : s.Inv) {q : Quantity}
    (hq : ∀ o, s.cfg.src.get q ≠ .ser o) (frames : List (List Byte)) :
    (s.win.get q).length + (framesSamples s.cfg frames q).length ≤ s.cfg.wCap := by
  rw [framesSamples_of_not_ser hq]
  exact h.win q

/-- Settles O43: the samples of each quantity are the fields of the frames where its source is serial,
and none elsewhere. -/
theorem validFramesAreAllExtracted : Obligations.ValidFramesAreAllExtracted := by
  unfold Obligations.ValidFramesAreAllExtracted
  intro s frames hinv hsrc hpos hrxq hvalid hfew
  have hall := foldl_syncByte_validFrames frames hinv.emptyFifo hpos hvalid
  rw [← hrxq, ← serialPass_of_le hsrc hfew] at hall
  obtain ⟨hfpos, happends⟩ := hall
  have hroom : ∀ q o, s.cfg.src.get q = .ser o →
      (s.win.get q).length + frames.length ≤ s.cfg.wCap →
      (s.win.get q).length + (framesSamples s.cfg frames q).length ≤ s.cfg.wCap := by
    intro q o hq h
    rwa [framesSamples_of_ser hq, List.length_map]
  refine ⟨serialPass s, rfl, serialPass_rxq hsrc, hfpos, fun q o hq h => ?_, fun q hq => ?_,
    fun h => happends.quiet fun q => ?_, hfpos ▸ happends.only⟩
  · rw [← framesSamples_of_ser hq]
    exact happends.win q (hroom q o hq h)
  · rw [happends.win q (hinv.room_of_not_ser hq frames), framesSamples_of_not_ser hq, List.append_nil]
  · by_cases hq : ∃ o, s.cfg.src.get q = .ser o
    · obtain ⟨o, hq⟩ := hq
      exact hroom q o hq (h q o hq)
    · exact hinv.room_of_not_ser (not_exists.1 hq) frames

end Sys2Proof.Machine
end

section
/-! The aggregator (43_aggregator.md): which operations change a window (R201), the median (R204), and
what a drain publishes, reports and clears (R205 to R210). -/

namespace Sys2Proof.Machine

open Sys2Proof

/-! ### A window changes only by its own path (43_aggregator.md R201) -/

/-- What leaves the window of `q`, where its source is not of the kind `p`, on every quantity, leaves it
when folded over a list of quantities. -/
theorem foldl_win_get {g : Quantity → State → State} {p : Source → Prop} {q : Quantity}
    (honly : ∀ r t, ∃ w f o, g r t = { t with win := w, fWinovf := f, out := o })
    (hget : ∀ r t, ¬p (t.cfg.src.get q) → (g r t).win.get q = t.win.get q) (qs : List Quantity)
    {s : State} (h : ¬p (s.cfg.src.get q)) :
    (qs.foldl (fun t r => g r t) s).win.get q = s.win.get q := by
  refine (List.foldlRecOn (motive := fun t : State => t.cfg = s.cfg ∧ t.win.get q = s.win.get q) qs _
    ⟨rfl, rfl⟩ ?_).2
  rintro t ⟨hcfg, hwin⟩ r -
  obtain ⟨_, _, _, e⟩ := honly r t
  exact ⟨by rw [e, hcfg], (hget r t (hcfg ▸ h)).trans hwin⟩

/-- An image sample leaves the window of a quantity whose source is not the image. -/
theorem appendImageSample_win_get {q : Quantity} (r : Quantity) (s : State)
    (h : ¬∃ i, s.cfg.src.get q = .twi i) : (appendImageSample r s).win.get q = s.win.get q := by
  by_cases hr : q = r
  · rw [← hr, appendImageSample_of_not_twi (not_exists.1 h)]
  · rw [appendImageSample_eq, PerQuantity.get_set_of_ne _ _ _ _ hr]

theorem sampleImage_win_get {q : Quantity} {s : State} (h : ¬∃ i, s.cfg.src.get q = .twi i) :
    (sampleImage s).win.get q = s.win.get q := by
  unfold sampleImage
  split
  · exact foldl_win_get (p := fun src => ∃ i, src = .twi i) appendImageSample_only
      appendImageSample_win_get _ h
  · rfl

/-- A frame sample leaves the window of a quantity whose source is not serial. -/
theorem appendFrameSample_win_get {q : Quantity} (r : Quantity) (s : State)
    (h : ¬∃ o, s.cfg.src.get q = .ser o) : (appendFrameSample r s).win.get q = s.win.get q := by
  by_cases hr : q = r
  · rw [← hr, appendFrameSample_of_not_ser (not_exists.1 h)]
  · by_cases hsrc : ∃ o, s.cfg.src.get r = .ser o
    · obtain ⟨o, hsrc⟩ := hsrc
      rw [appendFrameSample_of_ser hsrc, winAppend_get_of_ne _ _ _ _ hr]
    · rw [appendFrameSample_of_not_ser (not_exists.1 hsrc)]

theorem frameDone_win_get {q : Quantity} {s : State} (h : ¬∃ o, s.cfg.src.get q = .ser o) :
    (frameDone s).win.get q = s.win.get q := by
  unfold frameDone
  dsimp only
  split
  · exact foldl_win_get (p := fun src => ∃ o, src = .ser o) appendFrameSample_only
      appendFrameSample_win_get _ h
  · rfl

/-- Of the four cases of `SyncByte` only the end of a frame can change a window. -/
theorem syncByte_win_get {q : Quantity} {s : State} (h : ¬∃ o, s.cfg.src.get q = .ser o) (b : Byte) :
    (syncByte b s).win.get q = s.win.get q := by
  rcases syncByte_branches b s with ⟨hk, hb⟩ | ⟨hk, hb⟩ | ⟨hk, hf⟩ | ⟨hk, hf⟩
  · rw [syncByte_of_header hk hb]
  · rw [syncByte_of_mismatch hk hb, headerMismatch_eq]
  · rw [syncByte_of_body hk hf]
  · rw [syncByte_of_last hk hf]
    exact frameDone_win_get h

theorem serialPass_win_get {q : Quantity} {s : State} (h : ¬∃ o, s.cfg.src.get q = .ser o) :
    (serialPass s).win.get q = s.win.get q := by
  refine (serialPass_induction (fun t => t.cfg = s.cfg ∧ t.win.get q = s.win.get q) s ⟨rfl, rfl⟩
    (fun _ ht => ht) (fun _ _ _ ht => ht) ?_).2
  rintro b t ⟨hcfg, hwin⟩
  exact ⟨(syncByte_cfg b t).trans hcfg, (syncByte_win_get (hcfg ▸ h) b).trans hwin⟩

/-! ### The drain of one quantity (43_aggregator.md R206 to R209) -/

/-- The event of the drain of `q`. -/
def drainEvent (q : Quantity) (s : State) : Event :=
  let v := median (s.win.get q)
  let x := physicalValue s.cfg q v
  if s.win.get q = [] then .report .aggNoData .warning [q.index]
  else if s.cfg.min.get q ≤ x ∧ x ≤ s.cfg.max.get q then .publish q (roundBinary32 x)
  else .report .aggOutOfRange .warning [q.index, v.toNat]

/-- A drain empties its window and appends its event, and changes nothing else. -/
theorem drainOne_eq (q : Quantity) (s : State) :
    drainOne q s = { s with win := s.win.set q [], out := s.out ++ [drainEvent q s] } := by
  unfold drainOne
  by_cases h : s.win.get q = []
  · have hwin : s.win.set q [] = s.win := by rw [← h, PerQuantity.set_get_self]
    rw [if_pos (by simp [h]), hwin, drainEvent, if_pos h]
    rfl
  · rw [if_neg (by simpa using h), publishChecked, drainEvent, if_neg h]
    split <;> rfl

theorem drainOne_win_get {q r : Quantity} (h : q ≠ r) (s : State) :
    (drainOne r s).win.get q = s.win.get q := by
  rw [drainOne_eq, PerQuantity.get_set_of_ne _ _ _ _ h]

theorem foldl_drainOne_win_get {q : Quantity} {qs : List Quantity} (h : q ∉ qs) (s : State) :
    (qs.foldl (fun t r => drainOne r t) s).win.get q = s.win.get q :=
  List.foldlRecOn (motive := fun t : State => t.win.get q = s.win.get q) qs _ rfl
    fun t ht _ hr => (drainOne_win_get (ne_of_mem_of_not_mem hr h).symm t).trans ht

/-- The operand of DRAIN names one quantity by its number, or all of them by 3. -/
theorem drainTargets_index (q : Quantity) : drainTargets (BitVec.ofNat 2 q.index) = [q] := by
  cases q <;> rfl

theorem mem_drainTargets_iff (q : Quantity) (k : BitVec 2) :
    q ∈ drainTargets k ↔ k.toNat = q.index ∨ k.toNat = 3 := by
  revert k
  cases q <;> decide

/-- DRAIN of one quantity as one update of the state. -/
theorem exec_drain_index (q : Quantity) (s : State) :
    exec (.drain (BitVec.ofNat 2 q.index)) s = .next
      { s with win := s.win.set q [], out := s.out ++ [drainEvent q s] } := by
  rw [exec_drain, drainTargets_index, List.foldl_cons, List.foldl_nil, drainOne_eq]

/-! ### The median (43_aggregator.md R204) -/

/-- In an ascending list at most i elements are smaller than the one at index i. -/
theorem countP_lt_getElem_le {l : List RawSample} (hl : l.Pairwise fun u v => u.toNat ≤ v.toNat)
    {i : Nat} (hi : i < l.length) :
    l.countP (fun v => decide (v.toNat < l[i].toNat)) ≤ i := by
  have hdrop : (l.drop i).countP (fun v => decide (v.toNat < l[i].toNat)) = 0 := by
    refine List.countP_eq_zero.2 fun v hv => ?_
    obtain ⟨j, hj, rfl⟩ := List.mem_iff_getElem.1 hv
    rw [List.getElem_drop]
    have hle : l[i].toNat ≤ (l[i + j]'(by rw [List.length_drop] at hj; omega)).toNat := by
      rcases Nat.eq_zero_or_pos j with rfl | hj0
      · exact le_rfl
      · exact List.pairwise_iff_getElem.1 hl _ _ hi _ (by omega)
    simpa using hle
  calc l.countP (fun v => decide (v.toNat < l[i].toNat))
      = (l.take i).countP (fun v => decide (v.toNat < l[i].toNat)) +
          (l.drop i).countP (fun v => decide (v.toNat < l[i].toNat)) := by
        rw [← List.countP_append, List.take_append_drop]
    _ ≤ (l.take i).length := by rw [hdrop]; exact List.countP_le_length
    _ ≤ i := List.length_take_le i l

/-- In an ascending list the elements up to index i are at most the one there. -/
theorem lt_countP_le_getElem {l : List RawSample} (hl : l.Pairwise fun u v => u.toNat ≤ v.toNat)
    {i : Nat} (hi : i < l.length) :
    i < l.countP (fun v => decide (v.toNat ≤ l[i].toNat)) := by
  have htake : (l.take (i + 1)).countP (fun v => decide (v.toNat ≤ l[i].toNat)) =
      (l.take (i + 1)).length := by
    refine List.countP_eq_length.2 fun v hv => ?_
    obtain ⟨j, hj, rfl⟩ := List.mem_take_iff_getElem.1 hv
    have hle : (l[j]'(by omega)).toNat ≤ l[i].toNat := by
      rcases Nat.eq_or_lt_of_le (show j ≤ i by omega) with rfl | hji
      · exact le_rfl
      · exact List.pairwise_iff_getElem.1 hl _ _ (by omega) hi hji
    simpa using hle
  calc i < (l.take (i + 1)).length := by rw [List.length_take]; omega
    _ = (l.take (i + 1)).countP (fun v => decide (v.toNat ≤ l[i].toNat)) := htake.symm
    _ ≤ l.countP (fun v => decide (v.toNat ≤ l[i].toNat)) :=
        (List.take_sublist _ _).countP_le

/-- The median of samples is an element of the sorted list, at the index of the rule. -/
theorem exists_median_eq {L : List RawSample} (h : L ≠ []) :
    ∃ hi : (L.length - 1) / 2 < (sortAscending L).length,
      median L = (sortAscending L)[(L.length - 1) / 2] := by
  have hpos := List.length_pos_iff.2 h
  have hi : (L.length - 1) / 2 < (sortAscending L).length := by
    rw [(sortAscending_perm L).length_eq]
    omega
  exact ⟨hi, List.getD_eq_getElem _ _ hi⟩

/-! ### The statements -/

/-- Settles O45. -/
theorem sampleTickIsSkippedWhileBusy : Obligations.SampleTickIsSkippedWhileBusy := by
  unfold Obligations.SampleTickIsSkippedWhileBusy
  intro s hbusy
  rw [exec_sampleTick, sampleImage, if_neg (by simp [hbusy])]

/-- Settles O48, as the first case of the event of a drain. -/
theorem drainOfAnEmptyWindowReportsNoData : Obligations.DrainOfAnEmptyWindowReportsNoData := by
  unfold Obligations.DrainOfAnEmptyWindowReportsNoData
  intro q s hempty
  have hwin : s.win.set q [] = s.win := by rw [← hempty, PerQuantity.set_get_self]
  rw [exec_drain_index, hwin, drainEvent, if_pos hempty]

/-- Settles O49, as the two other cases of the event of a drain. -/
theorem drainPublishesOrRejectsAndClears : Obligations.DrainPublishesOrRejectsAndClears := by
  unfold Obligations.DrainPublishesOrRejectsAndClears
  intro q s hne
  rw [exec_drain_index, drainEvent, if_neg hne]
  rfl

/-- Settles O50: each of the three drains empties its own window and appends one event. -/
theorem drainAllIsTheThreeDrainsInOrder : Obligations.DrainAllIsTheThreeDrainsInOrder := by
  unfold Obligations.DrainAllIsTheThreeDrainsInOrder
  intro s
  have hall : exec (.drain 3#2) s =
      .next (drainOne .gas (drainOne .humidity (drainOne .temperature s))) := rfl
  refine ⟨rfl, _, hall, ?_⟩
  simp only [drainOne_eq, List.append_assoc, List.singleton_append]
  exact ⟨rfl, _, _, _, rfl⟩

/-- Settles O47: the sorted list is ascending and a permutation of the samples, and counts do not depend
on the order. -/
theorem medianIsTheLowerMiddle : Obligations.MedianIsTheLowerMiddle := by
  unfold Obligations.MedianIsTheLowerMiddle
  intro L hL
  obtain ⟨hi, hmedian⟩ := exists_median_eq hL
  have hperm := sortAscending_perm L
  have hsorted := sortAscending_sorted L
  rw [hmedian]
  refine ⟨hperm.mem_iff.1 (List.getElem_mem hi), ?_, ?_⟩
  · rw [← hperm.countP_eq]
    exact countP_lt_getElem_le hsorted hi
  · rw [← hperm.countP_eq]
    exact lt_countP_le_getElem hsorted hi

/-- Settles O22: an operation outside the list does not write a window, and one in it leaves those that
are not on its path. -/
theorem windowsChangeOnlyByTheirOwnPath : Obligations.WindowsChangeOnlyByTheirOwnPath := by
  unfold Obligations.WindowsChangeOnlyByTheirOwnPath
  intro i s t q h hchanged
  obtain rfl := (exec_eq_next_iff i s t).1 h
  by_cases hedge : presenter i = .edge
  · obtain ⟨_, _, _, _, _, _, _, _, _, _, _, e⟩ := effect_only_of_edge i s hedge
    exact absurd (by rw [e]) hchanged
  cases i
  case nop => exact absurd rfl hchanged
  case rxPush b =>
    obtain ⟨_, _, _, e⟩ := receiveByte_only b s
    exact absurd (by rw [effect, e]) hchanged
  case readStatus sel =>
    obtain ⟨_, _, e⟩ := statusRead_only sel s
    exact absurd (by rw [effect, e]) hchanged
  case sampleTick =>
    refine .inl ⟨rfl, ?_⟩
    by_contra hsrc
    exact hchanged (sampleImage_win_get hsrc)
  case serPoll =>
    refine .inr (.inl ⟨rfl, ?_⟩)
    by_contra hsrc
    exact hchanged (serialPass_win_get hsrc)
  case drain k =>
    refine .inr (.inr (.inl ⟨k, rfl, ?_⟩))
    by_contra hk
    exact hchanged (foldl_drainOne_win_get (mt (mem_drainTargets_iff q k).1 hk) s)
  case init => exact .inr (.inr (.inr rfl))
  all_goals exact absurd rfl hedge

end Sys2Proof.Machine
end

section
/-! `RoundBinary32` (43_aggregator.md R209). Below the overflow threshold everything is counted in units
of `2^-149`, the least positive binary32 value: a pattern is worth a whole number of units, and the nearest
pattern to `n / d` is found among whole numbers. -/

namespace Sys2Proof.Machine

open Sys2Proof

/-! ### The nearest integer, ties to even -/

/-- The result is off by at most half of `b`, and by half only if it is even. -/
theorem divTiesToEven_error (a : Nat) {b : Nat} (hb : 0 < b) :
    2 * |(a : Int) - divTiesToEven a b * b| ≤ b ∧
      (2 * |(a : Int) - divTiesToEven a b * b| = b → divTiesToEven a b % 2 = 0) := by
  have hr : a % b < b := Nat.mod_lt a hb
  have hdown : (a : Int) - (a / b : Nat) * b = (a % b : Nat) := by
    have : ((a / b : Nat) : Int) * b + (a % b : Nat) = a := by exact_mod_cast Nat.div_add_mod' a b
    linarith
  have hup : (a : Int) - (a / b + 1 : Nat) * b = (a % b : Nat) - b := by
    rw [← hdown]
    push_cast
    ring
  have habs_down : |((a % b : Nat) : Int)| = (a % b : Nat) := abs_of_nonneg (by omega)
  have habs_up : |((a % b : Nat) : Int) - b| = b - (a % b : Nat) := by
    rw [abs_sub_comm]
    exact abs_of_nonneg (by omega)
  unfold divTiesToEven
  split
  · rw [hdown, habs_down]
    omega
  · split
    · rw [hup, habs_up]
      omega
    · split
      · rw [hdown, habs_down]
        omega
      · rw [hup, habs_up]
        omega

/-- Two multiples of `b` lie at least `b` apart, so one of them is half of `b` or more away. -/
theorem le_add_abs_sub_multiples (a : Int) {b i j : Nat} (h : j ≠ i) :
    (b : Int) ≤ |a - i * b| + |a - j * b| := by
  have hij : (1 : Int) ≤ |(i : Int) - j| := Int.one_le_abs (by omega)
  calc (b : Int) ≤ |(i : Int) - j| * b := le_mul_of_one_le_left (by omega) hij
    _ = |(i * b : Int) - j * b| := by rw [← sub_mul, abs_mul, Nat.abs_cast]
    _ ≤ |(i * b : Int) - a| + |a - j * b| := abs_sub_le _ _ _
    _ = |a - i * b| + |a - j * b| := by rw [abs_sub_comm]

/-- No multiple of `b` is nearer to `a`. -/
theorem divTiesToEven_nearest (a : Nat) {b : Nat} (hb : 0 < b) (j : Nat) :
    |(a : Int) - divTiesToEven a b * b| ≤ |(a : Int) - j * b| := by
  by_cases h : j = divTiesToEven a b
  · rw [h]
  · have := le_add_abs_sub_multiples a (b := b) h
    have := (divTiesToEven_error a hb).1
    omega

/-- Where another multiple of `b` is equally near to `a`, the result is even. -/
theorem divTiesToEven_even (a : Nat) {b : Nat} (hb : 0 < b) {j : Nat} (h : j ≠ divTiesToEven a b)
    (htie : |(a : Int) - j * b| = |(a : Int) - divTiesToEven a b * b|) :
    divTiesToEven a b % 2 = 0 := by
  have := le_add_abs_sub_multiples a (b := b) h
  obtain ⟨hle, heven⟩ := divTiesToEven_error a hb
  exact heven (by omega)

theorem divTiesToEven_le {a b c : Nat} (hb : 0 < b) (h : 2 * a < (2 * c + 1) * b) :
    divTiesToEven a b ≤ c := by
  by_contra hlt
  have hmul : (c + 1) * b ≤ divTiesToEven a b * b := Nat.mul_le_mul_right b (by omega)
  have herror := (divTiesToEven_error a hb).1
  have habs := neg_le_abs ((a : Int) - divTiesToEven a b * b)
  zify at h hmul
  linarith

theorem le_divTiesToEven {a b c : Nat} (hb : 0 < b) (h : c * b ≤ a) : c ≤ divTiesToEven a b := by
  by_contra hlt
  have hmul : (divTiesToEven a b + 1) * b ≤ c * b := Nat.mul_le_mul_right b (by omega)
  have herror := (divTiesToEven_error a hb).1
  have habs := le_abs_self ((a : Int) - divTiesToEven a b * b)
  zify at h hmul hb
  linarith

/-! ### The binade and the significand of a magnitude -/

theorem bitLength_le_iff (t k : Nat) : bitLength t ≤ k ↔ t < 2 ^ k := by
  unfold bitLength
  split
  · rename_i h
    simp [h]
  · rename_i h
    rw [Nat.add_one_le_iff, Nat.log2_lt h]

/-- The binade, counted in units of `2^-149`. -/
theorem binadeOf_le_iff {n d k : Nat} (hd : 0 < d) :
    binadeOf n d ≤ k ↔ n * 2 ^ 149 < 2 ^ 24 * (d * 2 ^ k) := by
  rw [binadeOf, bitLength_le_iff, Nat.div_lt_iff_lt_mul hd, Nat.mul_comm (2 ^ k)]
  omega

/-- The multiple of `2^(k - 149)` nearest to `n / d`, with k the binade. -/
def significandOf (n d : Nat) : Nat := divTiesToEven (n * 2 ^ 149) (d * 2 ^ binadeOf n d)

theorem magnitudeBits_of_lt {n d : Nat} (h : n < (2 ^ 128 - 2 ^ 103) * d) :
    magnitudeBits n d = binadeOf n d * 2 ^ 23 + significandOf n d := by
  rw [magnitudeBits, if_neg (by omega), significandOf]

section
variable {n d : Nat} (hd : 0 < d)
include hd

theorem scale_pos : 0 < d * 2 ^ binadeOf n d := Nat.mul_pos hd (Nat.two_pow_pos _)

/-- The magnitude is below the end of its binade. -/
theorem lt_binade_end : n * 2 ^ 149 < 2 ^ 24 * (d * 2 ^ binadeOf n d) :=
  (binadeOf_le_iff hd).1 le_rfl

/-- Above the subnormal binade the magnitude is at or above the start of its binade. -/
theorem binade_start_le (hk : binadeOf n d ≠ 0) :
    2 ^ 23 * (d * 2 ^ binadeOf n d) ≤ n * 2 ^ 149 := by
  obtain ⟨j, hj⟩ := Nat.exists_eq_succ_of_ne_zero hk
  have h := mt (binadeOf_le_iff (n := n) (k := j) hd).2 (by omega)
  rw [hj, Nat.succ_eq_add_one, Nat.pow_succ (n := 2) (m := j), ← Nat.mul_assoc d]
  omega

theorem significandOf_le : significandOf n d ≤ 2 ^ 24 := by
  have := lt_binade_end (n := n) hd
  exact divTiesToEven_le (scale_pos hd) (by omega)

theorem le_significandOf (hk : binadeOf n d ≠ 0) : 2 ^ 23 ≤ significandOf n d :=
  le_divTiesToEven (scale_pos hd) (binade_start_le hd hk)

/-- Below the threshold the exponent field is not all ones: in the last binade the significand does not
round up to `2^24`. -/
theorem magnitudeBits_lt (h : n < (2 ^ 128 - 2 ^ 103) * d) : magnitudeBits n d < 255 * 2 ^ 23 := by
  have hk : binadeOf n d ≤ 253 := (binadeOf_le_iff hd).2 (by omega)
  have hm := significandOf_le (n := n) hd
  rw [magnitudeBits_of_lt h]
  rcases Nat.lt_or_eq_of_le hk with hk | hk
  · omega
  · have : significandOf n d ≤ 2 ^ 24 - 1 := by
      rw [significandOf, hk]
      exact divTiesToEven_le (Nat.mul_pos hd (Nat.two_pow_pos _)) (by omega)
    omega

end

/-- A number of units below the start of the binade is farther from the magnitude than the rounded one,
which is at least as near as the start of the binade. -/
theorem significandOf_nearer_than_below {n d u : Nat} (hd : 0 < d) (hk : binadeOf n d ≠ 0)
    (hu : u < 2 ^ 23 * 2 ^ binadeOf n d) :
    |((n * 2 ^ 149 : Nat) : Int) - significandOf n d * (d * 2 ^ binadeOf n d : Nat)| <
      |((n * 2 ^ 149 : Nat) : Int) - u * d| := by
  have hstart := binade_start_le hd hk
  have hbelow : u * d < 2 ^ 23 * (d * 2 ^ binadeOf n d) :=
    calc u * d < 2 ^ 23 * 2 ^ binadeOf n d * d := Nat.mul_lt_mul_of_pos_right hu hd
      _ = 2 ^ 23 * (d * 2 ^ binadeOf n d) := by ring
  calc |((n * 2 ^ 149 : Nat) : Int) - significandOf n d * (d * 2 ^ binadeOf n d : Nat)|
      ≤ |((n * 2 ^ 149 : Nat) : Int) - (2 ^ 23 : Nat) * (d * 2 ^ binadeOf n d : Nat)| :=
        divTiesToEven_nearest _ (scale_pos hd) (2 ^ 23)
    _ = ((n * 2 ^ 149 : Nat) : Int) - (2 ^ 23 : Nat) * (d * 2 ^ binadeOf n d : Nat) :=
        abs_of_nonneg (by rw [sub_nonneg]; exact_mod_cast hstart)
    _ < ((n * 2 ^ 149 : Nat) : Int) - u * d := sub_lt_sub_left (by exact_mod_cast hbelow) _
    _ ≤ |((n * 2 ^ 149 : Nat) : Int) - u * d| := le_abs_self _

/-! ### Patterns in units of 2^-149 -/

/-- What bits 30:0 of a finite pattern are worth, in units of `2^-149`. -/
def unitsOf (p : Nat) : Nat :=
  if p / 2 ^ 23 = 0 then p % 2 ^ 23 else (2 ^ 23 + p % 2 ^ 23) * 2 ^ (p / 2 ^ 23 - 1)

/-- The pattern of a binade and a significand is worth their product, and a significand of `2^24` counts
into the exponent. -/
theorem unitsOf_binade {k m : Nat} (hm : m ≤ 2 ^ 24) (hk : k ≠ 0 → 2 ^ 23 ≤ m) :
    unitsOf (k * 2 ^ 23 + m) = m * 2 ^ k := by
  have hfields : ∀ c r, m = c * 2 ^ 23 + r → r < 2 ^ 23 →
      (k * 2 ^ 23 + m) / 2 ^ 23 = k + c ∧ (k * 2 ^ 23 + m) % 2 ^ 23 = r := by omega
  unfold unitsOf
  rcases Nat.lt_or_ge m (2 ^ 23) with hsub | hnormal
  · obtain ⟨hexp, hfrac⟩ := hfields 0 m (by omega) hsub
    have hk0 : k = 0 := by
      by_contra h
      exact absurd (hk h) (by omega)
    rw [hexp, hfrac, hk0, if_pos rfl, pow_zero, Nat.mul_one]
  · rcases Nat.lt_or_eq_of_le hm with hlt | hcarry
    · obtain ⟨hexp, hfrac⟩ := hfields 1 (m - 2 ^ 23) (by omega) (by omega)
      rw [hexp, hfrac, if_neg (by omega), Nat.add_sub_cancel, Nat.add_sub_cancel' hnormal]
    · obtain ⟨hexp, hfrac⟩ := hfields 2 0 (by omega) (by omega)
      rw [hexp, hfrac, if_neg (by omega), hcarry, show k + 2 - 1 = k + 1 from rfl, Nat.pow_succ]
      omega

/-- A pattern is worth a multiple of the spacing of a binade, or less than the start of the binade. -/
theorem dvd_unitsOf_or_lt (p k : Nat) :
    2 ^ k ∣ unitsOf p ∨ k ≠ 0 ∧ unitsOf p < 2 ^ 23 * 2 ^ k := by
  have hfrac : p % 2 ^ 23 < 2 ^ 23 := Nat.mod_lt _ (by omega)
  unfold unitsOf
  split
  · by_cases hk : k = 0
    · exact .inl (by rw [hk, pow_zero]; exact Nat.one_dvd _)
    · exact .inr ⟨hk, hfrac.trans_le (Nat.le_mul_of_pos_right _ (Nat.two_pow_pos k))⟩
  · rcases Nat.lt_or_ge (p / 2 ^ 23 - 1) k with hlt | hge
    · refine .inr ⟨by omega, ?_⟩
      calc (2 ^ 23 + p % 2 ^ 23) * 2 ^ (p / 2 ^ 23 - 1)
          < 2 ^ 24 * 2 ^ (p / 2 ^ 23 - 1) :=
            Nat.mul_lt_mul_of_pos_right (by omega) (Nat.two_pow_pos _)
        _ = 2 ^ 23 * 2 ^ (p / 2 ^ 23 - 1 + 1) := by ring
        _ ≤ 2 ^ 23 * 2 ^ k := Nat.mul_le_mul_left _ (Nat.pow_le_pow_right (by omega) hlt)
    · exact .inl (Dvd.dvd.mul_left (pow_dvd_pow 2 hge) _)

/-- The units of the rounded magnitude. -/
def roundedUnits (n d : Nat) : Nat := significandOf n d * 2 ^ binadeOf n d

theorem unitsOf_magnitudeBits {n d : Nat} (hd : 0 < d) (h : n < (2 ^ 128 - 2 ^ 103) * d) :
    unitsOf (magnitudeBits n d) = roundedUnits n d := by
  rw [magnitudeBits_of_lt h]
  exact unitsOf_binade (significandOf_le hd) (le_significandOf hd)

section
variable {n d : Nat} (hd : 0 < d) (p : Nat)
include hd

/-- No pattern is nearer to `n / d`, and an equally near one of another worth makes the significand
even. The patterns of the binade and above are multiples of its spacing; those below it are farther away
than the start of the binade. -/
theorem roundedUnits_nearest :
    |((n * 2 ^ 149 : Nat) : Int) - roundedUnits n d * d| ≤
        |((n * 2 ^ 149 : Nat) : Int) - unitsOf p * d| ∧
      (|((n * 2 ^ 149 : Nat) : Int) - unitsOf p * d| =
          |((n * 2 ^ 149 : Nat) : Int) - roundedUnits n d * d| →
        unitsOf p ≠ roundedUnits n d → significandOf n d % 2 = 0) := by
  have hunits : ∀ j : Nat, ((j * 2 ^ binadeOf n d : Nat) : Int) * d =
      j * (d * 2 ^ binadeOf n d : Nat) := by
    intro j
    push_cast
    ring
  rw [roundedUnits, hunits]
  rcases dvd_unitsOf_or_lt p (binadeOf n d) with ⟨j, hj⟩ | ⟨hk, hlt⟩
  · rw [hj, Nat.mul_comm _ j, hunits]
    refine ⟨divTiesToEven_nearest _ (scale_pos hd) j, fun htie hne => ?_⟩
    exact divTiesToEven_even _ (scale_pos hd) (fun h => hne (by rw [h, significandOf])) htie
  · have hfarther := significandOf_nearer_than_below hd hk hlt
    exact ⟨hfarther.le, fun htie => absurd htie hfarther.ne'⟩

end

/-! ### Patterns and the numbers they stand for -/

theorem binary32Exponent_eq (f : Binary32) : binary32Exponent f = f.toNat % 2 ^ 31 / 2 ^ 23 := by
  rw [binary32Exponent, BitVec.extractLsb'_toNat, Nat.shiftRight_eq_div_pow]
  omega

theorem binary32Fraction_eq (f : Binary32) :
    binary32Fraction f = f.toNat % 2 ^ 31 % 2 ^ 23 := by
  rw [binary32Fraction, BitVec.extractLsb'_toNat, Nat.shiftRight_eq_div_pow]
  omega

theorem binary32Magnitude_eq (f : Binary32) :
    binary32Magnitude f = (unitsOf (f.toNat % 2 ^ 31) : Rat) / 2 ^ 149 := by
  rw [binary32Magnitude, unitsOf, binary32Exponent_eq, binary32Fraction_eq]
  split
  · rfl
  · rename_i hexp
    obtain ⟨e, he⟩ := Nat.exists_eq_add_one_of_ne_zero hexp
    rw [he, Nat.add_sub_cancel]
    push_cast
    ring

theorem abs_binary32Value (f : Binary32) :
    |binary32Value f| = (unitsOf (f.toNat % 2 ^ 31) : Rat) / 2 ^ 149 := by
  have hnonneg : (0 : Rat) ≤ (unitsOf (f.toNat % 2 ^ 31) : Rat) / 2 ^ 149 := by positivity
  rw [binary32Value, binary32Magnitude_eq]
  split
  · rw [abs_neg, abs_of_nonneg hnonneg]
  · exact abs_of_nonneg hnonneg

theorem abs_eq_natAbs_div (x : Rat) : |x| = (x.num.natAbs : Rat) / x.den := by
  conv_lhs => rw [← Rat.num_div_den x]
  rw [abs_div, Nat.abs_cast, Nat.cast_natAbs, Int.cast_abs]

theorem threshold_le_iff (x : Rat) :
    (2 ^ 128 - 2 ^ 103) * x.den ≤ x.num.natAbs ↔ 2 ^ 128 - 2 ^ 103 ≤ |x| := by
  have hden : (0 : Rat) < x.den := by exact_mod_cast x.den_pos
  rw [abs_eq_natAbs_div, le_div_iff₀ hden, ← Nat.cast_le (α := Rat)]
  norm_num

/-- The distance of |x| to a number of units, over the denominator of x. -/
theorem abs_sub_units (x : Rat) (u : Nat) :
    |(|x| - (u : Rat) / 2 ^ 149)| =
      (|((x.num.natAbs * 2 ^ 149 : Nat) : Int) - u * x.den| : Int) / (x.den * 2 ^ 149 : Rat) := by
  have hden : (0 : Rat) < x.den := by exact_mod_cast x.den_pos
  have hscale : (0 : Rat) < x.den * 2 ^ 149 := by positivity
  have hratio : |x| - (u : Rat) / 2 ^ 149 =
      (((x.num.natAbs * 2 ^ 149 : Nat) : Int) - u * x.den : Int) / (x.den * 2 ^ 149 : Rat) := by
    rw [abs_eq_natAbs_div x]
    generalize x.num.natAbs = n
    push_cast
    field_simp
    ring
  rw [hratio, abs_div, abs_of_pos hscale, Int.cast_abs]

/-! ### The result of rounding -/

section
variable {x : Rat}

theorem magnitudeBits_of_overflow (h : 2 ^ 128 - 2 ^ 103 ≤ |x|) :
    magnitudeBits x.num.natAbs x.den = 0x7F800000 := by
  rw [magnitudeBits, if_pos ((threshold_le_iff x).2 h)]

/-- Below the threshold, as a fact about the fraction. -/
theorem natAbs_num_lt (h : |x| < 2 ^ 128 - 2 ^ 103) :
    x.num.natAbs < (2 ^ 128 - 2 ^ 103) * x.den :=
  Nat.lt_of_not_le fun hle => absurd ((threshold_le_iff x).1 hle) (not_le.2 h)

/-- Bits 30:0 of the result are those of the magnitude. -/
theorem roundBinary32_toNat_mod (h : |x| < 2 ^ 128 - 2 ^ 103) :
    (roundBinary32 x).toNat % 2 ^ 31 = magnitudeBits x.num.natAbs x.den := by
  have hlt := magnitudeBits_lt x.den_pos (natAbs_num_lt h)
  rw [roundBinary32, toNat_append_eq_add, BitVec.toNat_ofNat]
  omega

/-- The last bit of the result is that of its significand. -/
theorem roundBinary32_getLsbD_zero (h : |x| < 2 ^ 128 - 2 ^ 103)
    (heven : significandOf x.num.natAbs x.den % 2 = 0) : (roundBinary32 x).getLsbD 0 = false := by
  have hbits := roundBinary32_toNat_mod h
  rw [magnitudeBits_of_lt (natAbs_num_lt h)] at hbits
  rw [← BitVec.testBit_toNat, Nat.testBit_zero, decide_eq_false_iff_not]
  omega

theorem binary32Finite_roundBinary32 (h : |x| < 2 ^ 128 - 2 ^ 103) :
    binary32Finite (roundBinary32 x) = true := by
  have hlt := magnitudeBits_lt x.den_pos (natAbs_num_lt h)
  rw [binary32Finite, binary32Exponent_eq, roundBinary32_toNat_mod h, decide_eq_true_eq]
  omega

theorem abs_binary32Value_roundBinary32 (h : |x| < 2 ^ 128 - 2 ^ 103) :
    |binary32Value (roundBinary32 x)| = (roundedUnits x.num.natAbs x.den : Rat) / 2 ^ 149 := by
  rw [abs_binary32Value, roundBinary32_toNat_mod h,
    unitsOf_magnitudeBits x.den_pos (natAbs_num_lt h)]

theorem roundBinary32_getLsbD_sign (x : Rat) :
    (roundBinary32 x).getLsbD 31 =
      (decide (x < 0) &&
        (decide (magnitudeBits x.num.natAbs x.den ≠ 0) || Config.underflowSign x)) := by
  rw [roundBinary32, BitVec.getLsbD_append]
  simp

/-- The result is not on the other side of 0: where the sign bit of a negative x is free, the result is
a zero. -/
theorem mul_binary32Value_roundBinary32_nonneg (h : |x| < 2 ^ 128 - 2 ^ 103) :
    0 ≤ x * binary32Value (roundBinary32 x) := by
  have hsign := roundBinary32_getLsbD_sign x
  have hmag : 0 ≤ binary32Magnitude (roundBinary32 x) := by
    rw [binary32Magnitude_eq]
    positivity
  rcases lt_or_ge x 0 with hx | hx
  · by_cases hzero : magnitudeBits x.num.natAbs x.den = 0
    · have hvalue : binary32Value (roundBinary32 x) = 0 := by
        rw [← abs_eq_zero, abs_binary32Value, roundBinary32_toNat_mod h, hzero]
        norm_num [unitsOf]
      rw [hvalue, mul_zero]
    · rw [decide_eq_true hx, decide_eq_true hzero] at hsign
      rw [binary32Value, hsign]
      exact mul_nonneg_of_nonpos_of_nonpos hx.le (neg_nonpos.2 hmag)
  · rw [decide_eq_false (not_lt.2 hx)] at hsign
    rw [binary32Value, hsign]
    exact mul_nonneg hx hmag

/-- So the error of the result is the error of its magnitude. -/
theorem abs_sub_binary32Value_roundBinary32 (h : |x| < 2 ^ 128 - 2 ^ 103) :
    |x - binary32Value (roundBinary32 x)| =
      |(|x| - (roundedUnits x.num.natAbs x.den : Rat) / 2 ^ 149)| := by
  have hsign := mul_binary32Value_roundBinary32_nonneg h
  rw [← abs_binary32Value_roundBinary32 h]
  rcases mul_nonneg_iff.1 hsign with ⟨hx, hv⟩ | ⟨hx, hv⟩
  · rw [abs_of_nonneg hx, abs_of_nonneg hv]
  · rw [abs_of_nonpos hx, abs_of_nonpos hv, neg_sub_neg, abs_sub_comm]

theorem abs_sub_roundedUnits_le (x : Rat) (p : Nat) :
    |(|x| - (roundedUnits x.num.natAbs x.den : Rat) / 2 ^ 149)| ≤
      |(|x| - (unitsOf p : Rat) / 2 ^ 149)| := by
  rw [abs_sub_units, abs_sub_units]
  exact div_le_div_of_nonneg_right (Int.cast_le.2 (roundedUnits_nearest x.den_pos p).1)
    (by positivity)

theorem significandOf_even_of_tie {p : Nat}
    (htie : |(|x| - (unitsOf p : Rat) / 2 ^ 149)| =
      |(|x| - (roundedUnits x.num.natAbs x.den : Rat) / 2 ^ 149)|)
    (hne : unitsOf p ≠ roundedUnits x.num.natAbs x.den) :
    significandOf x.num.natAbs x.den % 2 = 0 := by
  have hscale : (x.den * 2 ^ 149 : Rat) ≠ 0 := by
    have := x.den_pos
    positivity
  rw [abs_sub_units, abs_sub_units, div_left_inj' hscale, Int.cast_inj] at htie
  exact (roundedUnits_nearest x.den_pos p).2 htie hne

end

/-- Settles O52: the branch of the threshold, with the sign of x; and 0 by evaluation. -/
theorem roundBinary32OfZeroAndOverflow : Obligations.RoundBinary32OfZeroAndOverflow := by
  unfold Obligations.RoundBinary32OfZeroAndOverflow
  refine ⟨by decide, fun x hx => ?_, fun x hx => ?_⟩
  · have hpos : 0 ≤ x := le_trans (by norm_num) hx
    rw [roundBinary32, magnitudeBits_of_overflow (hx.trans (le_abs_self x)),
      decide_eq_false (not_lt.2 hpos), Bool.false_and]
    rfl
  · have hneg : x < 0 := lt_of_le_of_lt hx (by norm_num)
    rw [roundBinary32, magnitudeBits_of_overflow ((le_neg.1 hx).trans (neg_le_abs x)),
      decide_eq_true hneg, Bool.true_and, decide_eq_true (by decide), Bool.true_or]
    rfl

/-- Settles O51: magnitudes are rounded to the nearest one, and the sign is that of x. -/
theorem roundBinary32IsNearestTiesToEven : Obligations.RoundBinary32IsNearestTiesToEven := by
  unfold Obligations.RoundBinary32IsNearestTiesToEven
  refine fun x hx => ⟨binary32Finite_roundBinary32 hx, fun f _ => ?_⟩
  have herror := abs_sub_binary32Value_roundBinary32 hx
  have hnear := abs_sub_roundedUnits_le x (f.toNat % 2 ^ 31)
  have hmag : |(|x| - (unitsOf (f.toNat % 2 ^ 31) : Rat) / 2 ^ 149)| ≤ |x - binary32Value f| := by
    rw [← abs_binary32Value]
    exact abs_abs_sub_abs_le x _
  refine ⟨herror ▸ hnear.trans hmag, fun htie hne => roundBinary32_getLsbD_zero hx ?_⟩
  by_cases hu : unitsOf (f.toNat % 2 ^ 31) = roundedUnits x.num.natAbs x.den
  · have habs : |binary32Value f| = |binary32Value (roundBinary32 x)| := by
      rw [abs_binary32Value, hu, abs_binary32Value_roundBinary32 hx]
    have hopposite := (abs_eq_abs.1 habs).resolve_left hne
    rcases abs_eq_abs.1 htie with hsame | hmirror
    · exact absurd (sub_right_injective hsame) hne
    · obtain rfl : x = 0 := by linarith
      decide
  · exact significandOf_even_of_tie (le_antisymm (by rw [← herror, ← htie]; exact hmag) hnear) hu

end Sys2Proof.Machine
end

section
/-! The control operations and ILLEGAL(w) (44_control.md R230, R232, R233). -/

namespace Sys2Proof.Machine

open Sys2Proof

/-! ### Words that are illegal -/

theorem ifZero_of_not_isLegal {z : Bool} {w : Word} {i : Instr}
    (h : (ifZero z w i).isLegal = false) : ∃ r, ifZero z w i = .illegal r w := by
  rw [isLegal_ifZero] at h
  exact ⟨.mustBeZeroBit, by rw [h]; rfl⟩

theorem decodeSelector_of_not_isLegal {w : Word} (h : (decodeSelector w).isLegal = false) :
    ∃ r, decodeSelector w = .illegal r w := by
  rw [isLegal_decodeSelector, Bool.and_eq_false_iff] at h
  unfold decodeSelector
  cases hz : selBitsZero w with
  | false => exact ⟨.mustBeZeroBit, rfl⟩
  | true =>
    rw [hz] at h
    exact ⟨.reservedSelector, by rw [h.resolve_left nofun]; rfl⟩

/-- The decoder names the word itself as the illegal one, opcode by opcode. -/
theorem decode_of_not_isLegal {w : Word} (h : (decode w).isLegal = false) :
    ∃ r, decode w = .illegal r w := by
  unfold decode at h ⊢
  split at h
  case h_9 => exact decodeSelector_of_not_isLegal h -- F-SEL
  case h_11 => exact ⟨.reservedOpcode, rfl⟩
  all_goals exact ifZero_of_not_isLegal h

/-- The effect of an illegal word is ILLEGAL of that word (44_control.md R233). -/
theorem wordEffect_of_not_isLegal {w : Word} (h : (decode w).isLegal = false) (s : State) :
    wordEffect w s = illegalOp w s := by
  obtain ⟨r, hdecode⟩ := decode_of_not_isLegal h
  rw [wordEffect, hdecode]

/-- Of the words with opcode 0 only NOP's is legal: all of its operand bits must be 0. -/
theorem isLegal_iff_of_opcode_zero {w : Word} (h : opcodeOf w = 0x0#4) :
    (decode w).isLegal = true ↔ w = encode .nop := by
  have hop : (opcodeOf w).toNat = 0 := by rw [h]; rfl
  rw [decode, hop, eq_comm (a := w), encode_eq_iff]
  show (ifZero (noneBitsZero w) w .nop).isLegal = true ↔ _
  rw [isLegal_ifZero, noneBitsZero_iff]
  exact (and_iff_right hop).symm

/-! ### INIT -/

/-- ResetState() leaves the reset state, but for what is not in the record of 10_state.md R32. -/
theorem resetState_eq_powerOn (s : State) :
    resetState s =
      { State.powerOn s.cfg with port := s.port, stepIndex := s.stepIndex, out := s.out } := rfl

/-! ### The obligations -/

/-- Settles O9: the step is ILLEGAL of the head word, which is then gone. -/
theorem stepOnIllegalWordSetsFlagAndReports : Obligations.StepOnIllegalWordSetsFlagAndReports := by
  unfold Obligations.StepOnIllegalWordSetsFlagAndReports
  intro s a w rest hport hillegal
  rw [step_of_port_cons hport, wordEffect_of_not_isLegal hillegal]
  rfl

/-- Settles O53: the only legal word with opcode 0 is that of NOP, and NOP has no effect. -/
theorem nopLeavesTheState : Obligations.NopLeavesTheState := by
  unfold Obligations.NopLeavesTheState
  refine ⟨rfl, fun w hop hne => ?_, exec_eq_effect .nop⟩
  rw [← Bool.not_eq_true, isLegal_iff_of_opcode_zero hop]
  exact hne

/-- Settles O56: with a byte source INIT is ResetState(); without one the flag and the report follow. -/
theorem initLeavesTheResetState : Obligations.InitLeavesTheResetState := by
  unfold Obligations.InitLeavesTheResetState
  refine ⟨rfl, fun s => ?_⟩
  rw [exec_eq_effect, effect, stateAfterInit, resetState_eq_powerOn]
  cases hsource : s.cfg.serAttached with
  | true => rfl
  | false => rfl

end Sys2Proof.Machine
end

section
/-! A step always answers a next state (60_exceptions.md R250, R269), a run does not look at who presented
its words (R264), and an operation emits what the table of reports lists for it (R251). -/

namespace Sys2Proof.Machine

open Sys2Proof

/-- With the same words waiting under other agent tags, a run does what it does without the change. -/
theorem run_withStream_of_same_words {s : State} {tagged : List PortWord}
    (hwords : tagged.map PortWord.word = s.port.map PortWord.word) (n : Nat) :
    Host.Core.run Sys2Proof.core n (withStream tagged s.stepIndex s) = .next
      (withStream (tagged.drop n) (s.stepIndex + min n s.port.length)
        (wordsEffect ((s.port.take n).map PortWord.word) s)) := by
  have hlength : tagged.length = s.port.length := by simpa using congrArg List.length hwords
  rw [run_eq_wordsEffect, wordsEffect_streamFree]
  simp only [withStream_port, withStream_stepIndex, withStream_withStream, List.map_take, hwords,
    hlength]

/-! ### The obligations -/

/-- Settles O14: both runs have the effect of the same words, which do not look at the port. -/
theorem runIgnoresThePresentingAgents : Obligations.RunIgnoresThePresentingAgents := by
  unfold Obligations.RunIgnoresThePresentingAgents
  intro n s tagged hwords
  exact ⟨_, run_eq_wordsEffect n s, run_withStream_of_same_words hwords n⟩

/-- Settles O16, from the events of every operation. -/
theorem eventsComeFromTheirOperations : Obligations.EventsComeFromTheirOperations := by
  unfold Obligations.EventsComeFromTheirOperations
  intro i s t hwf h
  obtain rfl := (exec_eq_next_iff i s t).1 h
  obtain ⟨events, hout, hown⟩ := effect_emits i s
  exact ⟨events, hout, fun e he => (hown e he).2 hwf⟩

/-- Settles O10: `fetch` finds no word. -/
theorem stepWithoutAWordHoldsTheState : Obligations.StepWithoutAWordHoldsTheState := by
  unfold Obligations.StepWithoutAWordHoldsTheState
  exact fun s hport => step_of_port_nil hport

/-- Settles O11: the step holds the state on an empty port, and is the effect of the head word
otherwise. -/
theorem everyStepAnswersANextState : Obligations.EveryStepAnswersANextState := by
  unfold Obligations.EveryStepAnswersANextState
  intro s
  cases hport : s.port with
  | nil => exact ⟨s, step_of_port_nil hport⟩
  | cons p rest => exact ⟨_, step_of_port_cons hport⟩

end Sys2Proof.Machine
end

section
/-! The power-on state (70_reset_and_hazards.md R280, R281): what its image, its frame buffer and its
windows hold. Every other field of the record is a constant. -/

namespace Sys2Proof.Machine

open Sys2Proof

/-- The image lists no cell, so every cell reads as its reset value (10_state.md R40). -/
theorem powerOn_img_read (c : Config) (a : Nat) : (State.powerOn c).img.read a = 0#8 :=
  Memory.read_nil a

theorem powerOn_fbuf_length (c : Config) : (State.powerOn c).fbuf.length = c.frameLen :=
  List.length_replicate

theorem eq_zero_of_mem_powerOn_fbuf {c : Config} {b : Byte} (h : b ∈ (State.powerOn c).fbuf) :
    b = 0#8 :=
  List.eq_of_mem_replicate h

theorem powerOn_win_get (c : Config) (q : Quantity) : (State.powerOn c).win.get q = [] := by
  cases q with
  | temperature => rfl
  | humidity => rfl
  | gas => rfl

/-! ### The obligation -/

/-- Settles O57: the image, the frame buffer and the windows by their lemmas, the constant fields by
definition. -/
theorem resetValuesAreTheSpecs : Obligations.ResetValuesAreTheSpecs := by
  unfold Obligations.ResetValuesAreTheSpecs
  refine ⟨rfl, fun c => ?_⟩
  exact ⟨rfl, rfl, rfl, rfl, rfl, rfl, rfl, powerOn_img_read c, rfl, rfl, rfl,
    powerOn_fbuf_length c, fun _ => eq_zero_of_mem_powerOn_fbuf, rfl, powerOn_win_get c,
    rfl, rfl, rfl, rfl, rfl⟩

end Sys2Proof.Machine
end
